-- ==== Sys2Proof/Word.lean ====
section
/-! DEFINITION. The bit-vector types of the block: what the spec treats as bits (R8, R91 to R95). -/

namespace Sys2Proof

/-- One byte of the byte source (R61). -/
abbrev Byte := BitVec 8

/-- A 32-bit word: a header word, a nibble word, a history register (R21, R24, R27). -/
abbrev Word := BitVec 32

/-- A 16-bit half word: a header history field (R92) or the contents of an output slot (R62). -/
abbrev Half := BitVec 16

/-- A 4-bit field: a nibble, a coefficient index or a shift factor (R25, R95). -/
abbrev Nibble := BitVec 4

end Sys2Proof
end

