-- ==== Sys2Proof/Config.lean ====
section
/-! DEFINITION. What an implementation fixes (the five open widths of R6) and the free values: constants
with no body, of which nothing can be proved, applied to the number of values taken so far (`State.draws`) or, for the byte
source's error, to the source and the read. -/

namespace Sys2Proof

/-- The five parameters R6 leaves open (D3 to D7). `none`: the quantity is an unbounded natural number. `some k`:
it has `k` bits, and a command that does not fit is refused (R78, R121). -/
structure Widths where
  /-- bits of a byte-source address (ADDR_W) -/
  addrW   : Option Nat
  /-- bits of `first_sample` (INDEX_W) -/
  indexW  : Option Nat
  /-- bits of `samples_to_do` (COUNT_W) -/
  countW  : Option Nat
  /-- bits of `channel_spacing` (STRIDE_W) -/
  strideW : Option Nat
  /-- bits of an output slot number (SLOT_W) -/
  slotW   : Option Nat
  deriving DecidableEq, Repr

/-- DESIGN CHOICE (log 5). R6's own reading: "mathematical natural numbers", no width anywhere. -/
def Widths.unbounded : Widths := ⟨none, none, none, none, none⟩

/-- Free value (log 7): the error value a byte source of these contents reports for a failed read of `n` bytes at `addr`
(R301, "whatever the byte source reported"). No count of draws enters it: equal reads of an unchanged source fail alike
(R125). -/
opaque Config.sourceError (source : List (Nat × Byte)) (addr n : Nat) : Nat

/-- Free value (log 9): an unspecified 16-bit sample (R305). -/
opaque Config.freeHalf (draw : Nat) : Half

/-- Free value (log 10, 13): an unspecified 32-bit register (R38). -/
opaque Config.freeWord (draw : Nat) : Word

/-- Free value (log 10, 13): an unspecified 8-bit register (R38). -/
opaque Config.freeByte (draw : Nat) : Byte

/-- Free value (log 10, 11, 13): an unspecified natural number (R38). -/
opaque Config.freeNat (draw : Nat) : Nat

end Sys2Proof
end

