-- ==== Sys2Proof/Syntax.lean ====
section
/-! DEFINITION. The instructions of the block (R90): one constructor per row of spec/opcode_table.json, the formats they
stand in, and the raw words of those formats. -/

namespace Sys2Proof

/-- Format CMD (R97): the record of five natural numbers the host hands over with `DECODE`. -/
structure Command where
  base    : Nat
  out     : Nat
  spacing : Nat
  first   : Nat
  count   : Nat
  deriving DecidableEq, Repr

/-- The instructions (R90, R103). An operand is a field of the instruction's bits; an opcode is a constructor. -/
inductive Instr where
  /-- `DECODE`, format CMD (R120): `stream_base`, `output_slot`, `channel_spacing`, `first_sample`, `samples_to_do` -/
  | decode (base out spacing first count : Nat)
  /-- `HDR`, format H (R92, R150) -/
  | hdr (coefBits shiftBits : Word) (hist1 hist2 : Half)
  /-- descriptor, `coef_index` = 0 (R173) -/
  | mode0 (shiftFactor : Nibble)
  /-- descriptor, `coef_index` = 1 (R174) -/
  | mode1 (shiftFactor : Nibble)
  /-- descriptor, `coef_index` = 2 (R175) -/
  | mode2 (shiftFactor : Nibble)
  /-- descriptor, `coef_index` = 3 (R176) -/
  | mode3 (shiftFactor : Nibble)
  /-- descriptor, `coef_index` = 4 (R177) -/
  | mode4 (shiftFactor : Nibble)
  /-- descriptor, `coef_index` = 5 (R178) -/
  | mode5 (shiftFactor : Nibble)
  /-- descriptor, `coef_index` = 6 (R179) -/
  | mode6 (shiftFactor : Nibble)
  /-- descriptor, `coef_index` = 7, alias of entry 0 (R180) -/
  | mode0A7 (shiftFactor : Nibble)
  /-- descriptor, `coef_index` = 8, alias of entry 1 (R181) -/
  | mode1A8 (shiftFactor : Nibble)
  /-- descriptor, `coef_index` = 9, alias of entry 2 (R182) -/
  | mode2A9 (shiftFactor : Nibble)
  /-- descriptor, `coef_index` = 10, alias of entry 3 (R183) -/
  | mode3A10 (shiftFactor : Nibble)
  /-- descriptor, `coef_index` = 11, alias of entry 4 (R184) -/
  | mode4A11 (shiftFactor : Nibble)
  /-- descriptor, `coef_index` = 12, alias of entry 5 (R185) -/
  | mode5A12 (shiftFactor : Nibble)
  /-- descriptor, `coef_index` = 13, alias of entry 6 (R186) -/
  | mode6A13 (shiftFactor : Nibble)
  /-- descriptor, `coef_index` = 14, alias of entry 0 (R187) -/
  | mode0A14 (shiftFactor : Nibble)
  /-- descriptor, `coef_index` = 15, alias of entry 1 (R188) -/
  | mode1A15 (shiftFactor : Nibble)
  /-- `NIBW`, format W (R94, R200): the eight nibbles as one word, nibble `k` in bits `4k+3:4k` -/
  | nibw (word : Word)
  /-- `SAMPLE`, format N (R95, R224) -/
  | sample (n : Nibble)
  deriving DecidableEq, Repr

/-- A command as the instruction it is (R97). -/
def Command.instr (c : Command) : Instr := .decode c.base c.out c.spacing c.first c.count

/-- The formats (R90). A format is known from where the instruction stands, never from a pattern (R103). -/
inductive Format where
  /-- the host's command, no bits (R97) -/
  | cmd
  /-- the block header, 96 bits (R92) -/
  | h
  /-- the subframe descriptor, 8 bits (R96) -/
  | d
  /-- the nibble word, 32 bits (R94) -/
  | w
  /-- the nibble, 4 bits (R95) -/
  | n
  deriving DecidableEq, Repr

/-- What stands at a place of each format, before it is decoded. -/
inductive Raw where
  | cmd (c : Command)
  | h (bits : BitVec 96)
  | d (bits : BitVec 8)
  | w (bits : BitVec 32)
  | n (bits : BitVec 4)
  deriving DecidableEq, Repr

/-- The format a raw word stands in. -/
def Raw.format : Raw → Format
  | .cmd _ => .cmd
  | .h _ => .h
  | .d _ => .d
  | .w _ => .w
  | .n _ => .n

/-- The format of an instruction (the table of R90). -/
def Instr.format : Instr → Format
  | .decode _ _ _ _ _ => .cmd
  | .hdr _ _ _ _ => .h
  | .mode0 _ | .mode1 _ | .mode2 _ | .mode3 _ | .mode4 _ | .mode5 _ | .mode6 _ => .d
  | .mode0A7 _ | .mode1A8 _ | .mode2A9 _ | .mode3A10 _ | .mode4A11 _ | .mode5A12 _ | .mode6A13 _ => .d
  | .mode0A14 _ | .mode1A15 _ => .d
  | .nibw _ => .w
  | .sample _ => .n

/-- The mnemonic of an instruction, as spec/opcode_table.json writes it (R103). -/
def Instr.mnemonic : Instr → String
  | .decode _ _ _ _ _ => "DECODE"
  | .hdr _ _ _ _ => "HDR"
  | .mode0 _ => "MODE0"
  | .mode1 _ => "MODE1"
  | .mode2 _ => "MODE2"
  | .mode3 _ => "MODE3"
  | .mode4 _ => "MODE4"
  | .mode5 _ => "MODE5"
  | .mode6 _ => "MODE6"
  | .mode0A7 _ => "MODE0.A7"
  | .mode1A8 _ => "MODE1.A8"
  | .mode2A9 _ => "MODE2.A9"
  | .mode3A10 _ => "MODE3.A10"
  | .mode4A11 _ => "MODE4.A11"
  | .mode5A12 _ => "MODE5.A12"
  | .mode6A13 _ => "MODE6.A13"
  | .mode0A14 _ => "MODE0.A14"
  | .mode1A15 _ => "MODE1.A15"
  | .nibw _ => "NIBW"
  | .sample _ => "SAMPLE"

end Sys2Proof
end

