-- ==== Sys2Proof/WellFormed.lean ====
section
/-! DEFINITION. Which instructions are well formed. Every bit pattern of every format is legal (R104), so the fields of
HDR, the descriptors, NIBW and SAMPLE need no check beyond their widths. The one operand with a domain of its own is
`channel_spacing`, "natural number ≥ 1" (R33). A `DECODE` that breaks it is refused by its meaning (R121). -/

namespace Sys2Proof

/-- The static operand domains (R33, R104). -/
def Instr.wellFormed : Instr → Bool
  | .decode _ _ spacing _ _ => decide (1 ≤ spacing)
  | .hdr _ _ _ _ => true
  | .mode0 _ | .mode1 _ | .mode2 _ | .mode3 _ | .mode4 _ | .mode5 _ | .mode6 _ => true
  | .mode0A7 _ | .mode1A8 _ | .mode2A9 _ | .mode3A10 _ | .mode4A11 _ | .mode5A12 _ | .mode6A13 _ => true
  | .mode0A14 _ | .mode1A15 _ => true
  | .nibw _ => true
  | .sample _ => true

end Sys2Proof
end

