-- ==== Sys2Proof/Decode.lean ====
section
/-! DEFINITION. Decoding and encoding (R90 to R103). The format is given by the place (R103); inside a format every bit
pattern decodes (R104). `decodeBytes` is the decoder over bytes as the hardware stores them, little-endian (R63); it
rejects by name a list too short for its format, and a place that has no bits. -/

namespace Sys2Proof

/-- Little-endian value of bytes at ascending addresses, `b0 + 256 b1 + ...` (R10, R63). -/
def leNat : List Byte → Nat
  | [] => 0
  | b :: bs => b.toNat + 256 * leNat bs

/-- The `k` bytes of a value at ascending addresses, lowest first (R63). -/
def leBytes : (k : Nat) → (v : Nat) → List Byte
  | 0, _ => []
  | k + 1, v => BitVec.ofNat 8 v :: leBytes k (v / 256)

/-- Field `i` of a word of eight 4-bit fields: bits `4i+3:4i` (R94, R98). -/
def nibbleOf (w : Word) (i : Nat) : Nibble := w.extractLsb' (4 * i) 4

/-- A word with field `i` replaced. Only `State.withFetchWord` uses it. -/
def withNibble (w : Word) (i : Nat) (v : Nibble) : Word :=
  (w &&& ~~~((0xF#32) <<< (4 * i))) ||| ((v.setWidth 32) <<< (4 * i))

/-- Format D: the opcode is `coef_index` in bits 3:0, the operand `shift_factor` in bits 7:4 (R96). The map is that of
R103; the last arm is opcode 15. -/
def decodeDescriptor (d : BitVec 8) : Instr :=
  let s : Nibble := d.extractLsb' 4 4
  match d.toNat % 16 with
  | 0 => .mode0 s
  | 1 => .mode1 s
  | 2 => .mode2 s
  | 3 => .mode3 s
  | 4 => .mode4 s
  | 5 => .mode5 s
  | 6 => .mode6 s
  | 7 => .mode0A7 s
  | 8 => .mode1A8 s
  | 9 => .mode2A9 s
  | 10 => .mode3A10 s
  | 11 => .mode4A11 s
  | 12 => .mode5A12 s
  | 13 => .mode6A13 s
  | 14 => .mode0A14 s
  | _ => .mode1A15 s

/-- Format H: the fields of R92. -/
def decodeHeader (h : BitVec 96) : Instr :=
  .hdr (h.extractLsb' 0 32) (h.extractLsb' 32 32) (h.extractLsb' 64 16) (h.extractLsb' 80 16)

/-- The instruction a raw word stands for. Total: there is no illegal encoding (R104). -/
def decodeRaw : Raw → Instr
  | .cmd c => .decode c.base c.out c.spacing c.first c.count
  | .h bits => decodeHeader bits
  | .d bits => decodeDescriptor bits
  | .w bits => .nibw bits
  | .n bits => .sample bits

/-- Why a list of bytes is no instruction of a format. -/
inductive DecodeError where
  /-- the list is shorter than the format's fixed length (R105) -/
  | tooShort (f : Format) (available : Nat)
  /-- format CMD has no bit encoding (R97) -/
  | commandHasNoBits
  /-- a nibble handed over alone in a byte: the byte's high half is no part of it and must be 0 (DESIGN CHOICE, log 21) -/
  | notOneNibble
  deriving DecidableEq, Repr

/-- Length in bytes of a format that has bits; a nibble alone is handed over in one byte (log 21). -/
def formatBytes : Format → Nat
  | .cmd => 0
  | .h => 12
  | .d => 1
  | .w => 4
  | .n => 1

/-- The raw word of a format held by exactly its bytes. -/
def rawOfBytes (f : Format) (bs : List Byte) : Except DecodeError Raw :=
  match f with
  | .cmd => .error .commandHasNoBits
  | .h => .ok (.h (BitVec.ofNat 96 (leNat bs)))
  | .d => .ok (.d (BitVec.ofNat 8 (leNat bs)))
  | .w => .ok (.w (BitVec.ofNat 32 (leNat bs)))
  | .n => if leNat bs < 16 then .ok (.n (BitVec.ofNat 4 (leNat bs))) else .error .notOneNibble

/-- The decoder over bytes: the instruction of format `f` at the head of `bs`, with the rest. -/
def decodeBytes (f : Format) (bs : List Byte) : Except DecodeError (Instr × List Byte) :=
  if bs.length < formatBytes f then .error (.tooShort f bs.length)
  else match rawOfBytes f (bs.take (formatBytes f)) with
    | .ok raw => .ok (decodeRaw raw, bs.drop (formatBytes f))
    | .error e => .error e

/-- The descriptor byte `D_i = shift_factor ++ coef_index` (R96). -/
def descriptorBits (shiftFactor coefIndex : Nibble) : BitVec 8 := shiftFactor ++ coefIndex

/-- The encoder, from the same tables (R92, R94 to R97, R103). -/
def encodeRaw : Instr → Raw
  | .decode base out spacing first count => .cmd ⟨base, out, spacing, first, count⟩
  | .hdr cb sb h1 h2 => .h (h2 ++ h1 ++ sb ++ cb)
  | .mode0 s => .d (descriptorBits s 0)
  | .mode1 s => .d (descriptorBits s 1)
  | .mode2 s => .d (descriptorBits s 2)
  | .mode3 s => .d (descriptorBits s 3)
  | .mode4 s => .d (descriptorBits s 4)
  | .mode5 s => .d (descriptorBits s 5)
  | .mode6 s => .d (descriptorBits s 6)
  | .mode0A7 s => .d (descriptorBits s 7)
  | .mode1A8 s => .d (descriptorBits s 8)
  | .mode2A9 s => .d (descriptorBits s 9)
  | .mode3A10 s => .d (descriptorBits s 10)
  | .mode4A11 s => .d (descriptorBits s 11)
  | .mode5A12 s => .d (descriptorBits s 12)
  | .mode6A13 s => .d (descriptorBits s 13)
  | .mode0A14 s => .d (descriptorBits s 14)
  | .mode1A15 s => .d (descriptorBits s 15)
  | .nibw word => .w word
  | .sample n => .n n

/-- The bytes of a raw word, lowest address first; a command has none. -/
def bytesOfRaw : Raw → List Byte
  | .cmd _ => []
  | .h bits => leBytes 12 bits.toNat
  | .d bits => leBytes 1 bits.toNat
  | .w bits => leBytes 4 bits.toNat
  | .n bits => leBytes 1 bits.toNat

/-- The encoder over bytes. -/
def encodeBytes (i : Instr) : List Byte := bytesOfRaw (encodeRaw i)

/-- The opcode map of R103 as data: mnemonic, match and mask over the 8 bits of `D_i`. -/
def descriptorRows : List (String × BitVec 8 × BitVec 8) :=
  [("MODE0", 0x00, 0x0F), ("MODE1", 0x01, 0x0F), ("MODE2", 0x02, 0x0F), ("MODE3", 0x03, 0x0F)] ++
  [("MODE4", 0x04, 0x0F), ("MODE5", 0x05, 0x0F), ("MODE6", 0x06, 0x0F), ("MODE0.A7", 0x07, 0x0F)] ++
  [("MODE1.A8", 0x08, 0x0F), ("MODE2.A9", 0x09, 0x0F), ("MODE3.A10", 0x0A, 0x0F), ("MODE4.A11", 0x0B, 0x0F)] ++
  [("MODE5.A12", 0x0C, 0x0F), ("MODE6.A13", 0x0D, 0x0F), ("MODE0.A14", 0x0E, 0x0F), ("MODE1.A15", 0x0F, 0x0F)]

/-- The format spec/opcode_table.json's width names: a row of 96, 32, 8 or 4 bits; a row with no width (0 bits) is the
command (log 21). -/
def formatOfTableBits : Nat → Option Format
  | 96 => some .h
  | 32 => some .w
  | 8 => some .d
  | 4 => some .n
  | 0 => some .cmd
  | _ => none

/-- What the decoder reads from an instruction whose bits are `w`, numbered as the opcode table numbers them. The bytes
are laid out little-endian and given to `decodeBytes`; `DECODE` has no bits, so its five operand words are zeros. -/
def decodeTableWord (nbits w : Nat) : Option Instr :=
  match formatOfTableBits nbits with
  | none => none
  | some .cmd => some (decodeRaw (.cmd ⟨0, 0, 0, 0, 0⟩))
  | some f =>
    match decodeBytes f (leBytes (formatBytes f) w) with
    | .ok (i, _) => some i
    | .error _ => none

end Sys2Proof
end

