-- ==== Sys2Proof/Machine/State.lean ====
section
/-! DEFINITION. The state of the decoder (10_state.md R20 to R41), the reasons a step can stop, and the state after
power-on reset (R38). -/

namespace Sys2Proof.Machine

/-- `STATUS` (R35): an enumeration with no bit encoding. -/
inductive Status where
  /-- after reset and before the first command -/
  | idle
  /-- from the acceptance of `DECODE` until its end -/
  | busy
  /-- the call ended without a failed read -/
  | done
  /-- a read failed -/
  | fault
  deriving DecidableEq, Repr

/-- `FAULT_INFO` (R35, R304): the byte source's error value, unmodified, with the address and width of the failed read. -/
structure FaultInfo where
  err  : Nat
  addr : Nat
  size : Nat
  deriving DecidableEq, Repr

/-- The sequencer position `(I, J, K)` (R29): subframe, nibble word, nibble. -/
structure SeqPos where
  i : Fin 8
  j : Fin 4
  k : Fin 8
  deriving DecidableEq, Repr

/-- DESIGN CHOICE (log 1). Where in the loop of R250 the decoder stands at its position `(I, J, K)`. -/
inductive Stage where
  /-- before `HDR` -/
  | header
  /-- before stop test A of word `(I, J)`; then the descriptor if `J = 0`, else `NIBW` -/
  | boundary
  /-- after the descriptor of subframe `I`; `NIBW` is next -/
  | fetch
  /-- before stop test B of nibble `(I, J, K)`; then `SAMPLE` -/
  | nibble
  /-- the position passed (7, 3, 7) -/
  | exhausted
  deriving DecidableEq, Repr

/-- Why a `DECODE` is refused (R121, R308). -/
inductive RefuseReason where
  /-- `STATUS = BUSY` -/
  | whileBusy
  /-- `channel_spacing = 0` -/
  | spacingZero
  /-- an operand wider than its parameter of R6 -/
  | operandWidth
  /-- the last byte of the block does not fit ADDR_W (R78) -/
  | addressWidth
  /-- the last written slot does not fit SLOT_W (R78) -/
  | slotWidth
  deriving DecidableEq, Repr

/-- DESIGN CHOICE (log 4). The answer the command interface gave to the last `DECODE`: the outcome of `refuse(reason)`
(R10). It is the interface's, not a register of the decoder (D23). -/
inductive Reply where
  /-- no command since reset -/
  | none
  | accepted
  | refused (reason : RefuseReason)
  deriving DecidableEq, Repr

/-- DESIGN CHOICE (log 3). What the host can do to the machine between two instructions. -/
inductive HostEvent where
  /-- issue `DECODE` (R120) -/
  | command (c : Command)
  /-- reset the block (R340) -/
  | reset
  /-- put a byte into the byte source (R76) -/
  | storeByte (addr : Nat) (b : Byte)
  /-- take a byte out of the byte source: reads of it fail from now on (R301) -/
  | dropByte (addr : Nat)
  /-- write a slot of the host's own output buffer (R62) -/
  | storeSlot (slot : Nat) (v : Half)
  deriving DecidableEq, Repr

/-- The machine. Register names are those of 10_state.md. -/
structure State where
  /-- `STATUS` (R35) -/
  status         : Status
  /-- `SAMPLES_WRITTEN` (R35), valid in DONE -/
  samplesWritten : Nat
  /-- `FAULT_INFO` (R35), valid in FAULT -/
  faultInfo      : FaultInfo
  /-- `STREAM_BASE` (R33) -/
  streamBase     : Nat
  /-- `OUT_SLOT` (R33) -/
  outSlot        : Nat
  /-- `CHANNEL_SPACING` (R33) -/
  channelSpacing : Nat
  /-- `FIRST_SAMPLE` (R33) -/
  firstSample    : Nat
  /-- `SAMPLES_TO_DO` (R33) -/
  samplesToDo    : Nat
  /-- `BLOCK_INDEX` (R34) -/
  blockIndex     : Nat
  /-- `INTRA_OFFSET` (R34) -/
  intraOffset    : Nat
  /-- `BLOCK_ADDR` (R34) -/
  blockAddr      : Nat
  /-- `COEF_BITS` (R24) -/
  coefBits       : Word
  /-- `SHIFT_BITS` (R24) -/
  shiftBits      : Word
  /-- `HIST1` (R21), signed -/
  hist1          : Word
  /-- `HIST2` (R22), signed -/
  hist2          : Word
  /-- `COEF1` (R26), signed -/
  coef1          : Byte
  /-- `COEF2` (R26), signed -/
  coef2          : Byte
  /-- `SHIFT` (R26), unsigned -/
  shift          : BitVec 5
  /-- `NIBWORD` (R27) -/
  nibWord        : Word
  /-- `(I, J, K)` (R29) -/
  pos            : SeqPos
  /-- `G` (R30) -/
  g              : Nat
  /-- `SAMPLES_DONE` (R31) -/
  samplesDone    : Nat
  /-- the byte source (R61): the listed addresses are those it can supply -/
  source         : List Host.Cell
  /-- the output buffer (R62): the listed slots are those written since reset -/
  outBuf         : List (Nat × Half)
  /-- the reads asked of the byte source, oldest first, as (address, width) (R40, R66); log 15 -/
  readLog        : List (Nat × Nat)
  /-- the model's own: place in the loop of R250 (log 1) -/
  stage          : Stage
  /-- the model's own: answer to the last command (log 4) -/
  reply          : Reply
  /-- the model's own: what the host does at each coming step, `none` for nothing (log 3) -/
  tape           : List (Option HostEvent)
  /-- the model's own: the parameters of R6, which no step changes (log 5) -/
  widths         : Widths
  /-- the model's own: how many free values were taken (log 14) -/
  draws          : Nat
  deriving DecidableEq, Repr

/-- Reasons a step stops with a fault. There is none: the block's one fault, `ReadFault`, has an entry the spec describes
(R304) and is a next state, and nothing else can go wrong (R300). No one raises a `Fault`; safe (log 4). -/
inductive Fault : Type
  deriving DecidableEq, Repr

/-- Reasons a step is refused. -/
inductive Refusal where
  /-- raised by an arm of `exec` whose instruction has no meaning; no arm does now; safe -/
  | notModelled (mnemonic : String)
  deriving DecidableEq, Repr

/-- The state after power-on (R38): `STATUS = IDLE`. The spec leaves every other register unspecified; the values here are
a DESIGN CHOICE (log 12): zero, but for two whose type excludes it (`CHANNEL_SPACING` 1, `SHIFT` 22). Memory lists
nothing, the host has done nothing. -/
def State.reset : State where
  status := .idle
  samplesWritten := 0
  faultInfo := ⟨0, 0, 0⟩
  streamBase := 0
  outSlot := 0
  channelSpacing := 1
  firstSample := 0
  samplesToDo := 0
  blockIndex := 0
  intraOffset := 0
  blockAddr := 0
  coefBits := 0
  shiftBits := 0
  hist1 := 0
  hist2 := 0
  coef1 := 0
  coef2 := 0
  shift := 22
  nibWord := 0
  pos := ⟨0, 0, 0⟩
  g := 0
  samplesDone := 0
  source := []
  outBuf := []
  readLog := []
  stage := .header
  reply := .none
  tape := []
  widths := Widths.unbounded
  draws := 0

end Sys2Proof.Machine
end

