-- ==== Sys2Proof/Machine/Operands.lean ====
section
/-! DEFINITION. The constants of R5, the integer primitives of R9, the coefficient table, and every operand form:
descriptor fields, nibbles, addresses, slots, operand domains. -/

namespace Sys2Proof.Machine

/-- BLOCK_BYTES (R5). -/
def blockBytes : Nat := 0x8c
/-- HEADER_BYTES (R5). -/
def headerBytes : Nat := 0x0c
/-- SUBFRAME_BYTES (R5). -/
def subframeBytes : Nat := 0x10
/-- Bytes of a nibble word (R91). -/
def nibbleWordBytes : Nat := 0x04
/-- BLOCK_SAMPLES (R5, R140). -/
def blockSamples : Nat := 256
/-- TABLE_ENTRIES (R5). -/
def tableEntries : Nat := 7
/-- SHIFT_BIAS (R5). -/
def shiftBias : Nat := 0x16
/-- ROUND_SHIFT (R5). -/
def roundShift : Nat := 6
/-- The constant left shift of step 1 (R202). -/
def nibbleLeftShift : Nat := 28
/-- SAMPLE_MIN (R5). -/
def sampleMin : Int := -32768
/-- SAMPLE_MAX (R5). -/
def sampleMax : Int := 32767

/-- `s32(v)` (R9): the integer congruent to `v` modulo 2^32 in the signed 32-bit range. -/
def s32 (v : Int) : Int := (BitVec.ofInt 32 v).toInt

/-- `lsl32(v, n)` (R9): shift left inside a 32-bit word, read as signed. -/
def lsl32 (v : Int) (n : Nat) : Int := s32 (v * 2 ^ n)

/-- `asr(v, n)` (R9, R225): `floor(v / 2^n)`. `/` on `Int` by a positive divisor rounds down. -/
def asr (v : Int) (n : Nat) : Int := v / 2 ^ n

/-- `clamp16(v)` (R9, R222). -/
def clamp16 (v : Int) : Int := if v < sampleMin then sampleMin else if sampleMax < v then sampleMax else v

/-- `sext_16` of a header field into a history register (R99). -/
def sext16 (v : Half) : Word := v.signExtend 32

/-- The coefficient table (R170), a constant: nothing writes it (R36). -/
def tableEntry (e : Nat) : Byte × Byte :=
  match e with
  | 0 => (0, 0)
  | 1 => (60, 0)
  | 2 => (122, 60)
  | 3 => (115, 52)
  | 4 => (98, 55)
  | 5 => (0, 0)
  | _ => (0, 0)

/-- The fold (R171): `effective_index = coef_index mod 7`. -/
def effectiveIndex (coefIndex : Nibble) : Nat := coefIndex.toNat % tableEntries

/-- The pair a coefficient index selects (R171). -/
def coefPair (coefIndex : Nibble) : Byte × Byte := tableEntry (effectiveIndex coefIndex)

/-- The effective shift `0x16 - shift_factor` (R101). -/
def effectiveShift (shiftFactor : Nibble) : BitVec 5 := BitVec.ofNat 5 (shiftBias - shiftFactor.toNat)

/-- `COEF_INDEX[i]` (R25, R98). -/
def State.coefIndex (s : State) (i : Nat) : Nibble := nibbleOf s.coefBits i

/-- `SHIFT_FACTOR[i]` (R25, R98). -/
def State.shiftFactor (s : State) (i : Nat) : Nibble := nibbleOf s.shiftBits i

/-- The descriptor `D_i` (R96), gathered from the two header words. -/
def State.descriptor (s : State) (i : Nat) : BitVec 8 := descriptorBits (s.shiftFactor i) (s.coefIndex i)

/-- The nibble of the word in `NIBWORD` that stands at `K` (R100, R201). -/
def State.currentNibble (s : State) : Nibble := nibbleOf s.nibWord s.pos.k.val

/-- The address of nibble word `J` of subframe `I` (R200). -/
def State.nibbleWordAddr (s : State) : Nat :=
  s.blockAddr + headerBytes + subframeBytes * s.pos.i.val + nibbleWordBytes * s.pos.j.val

/-- The header's four reads, (address, width), in the order they are made (R66, R150). -/
def State.headerReads (s : State) : List (Nat × Nat) :=
  [(s.blockAddr + 0x00, 4), (s.blockAddr + 0x04, 4), (s.blockAddr + 0x08, 2), (s.blockAddr + 0x0a, 2)]

/-- The one read of `NIBW` (R66, R200). -/
def State.nibbleReads (s : State) : List (Nat × Nat) := [(s.nibbleWordAddr, 4)]

/-- The slot the next written sample goes to (R62, R253). -/
def State.nextSlot (s : State) : Nat := s.outSlot + s.samplesDone * s.channelSpacing

/-- How many samples a call writes that no failed read ends (R120, R258). -/
def windowCount (intraOffset count : Nat) : Nat := min count (blockSamples - intraOffset)

/-- The size of the call's window (R305). -/
def State.windowSize (s : State) : Nat := windowCount s.intraOffset s.samplesToDo

/-- `LOCATE`, block index (R141). -/
def locateIndex (first : Nat) : Nat := first / blockSamples

/-- `LOCATE`, offset inside the block (R142). -/
def locateOffset (first : Nat) : Nat := first % blockSamples

/-- `LOCATE`, block address (R143). -/
def locateAddr (base first : Nat) : Nat := base + blockBytes * locateIndex first

/-- Whether a value fits a width of R6; an unbounded quantity always does. -/
def fitsWidth (w : Option Nat) (v : Nat) : Bool :=
  match w with
  | none => true
  | some k => decide (v < 2 ^ k)

/-- The five operands fit their widths (R121). -/
def operandsFit (w : Widths) (c : Command) : Bool :=
  fitsWidth w.addrW c.base && fitsWidth w.slotW c.out && fitsWidth w.strideW c.spacing &&
    fitsWidth w.indexW c.first && fitsWidth w.countW c.count

/-- The block's last byte, `BLOCK_ADDR + 0x8b`, fits (R78). -/
def blockFits (w : Widths) (c : Command) : Bool := fitsWidth w.addrW (locateAddr c.base c.first + 0x8b)

/-- The last slot a command writes; its first slot when it writes none. -/
def lastSlot (c : Command) : Nat := c.out + (windowCount (locateOffset c.first) c.count - 1) * c.spacing

/-- The largest written slot fits (R78). -/
def slotsFit (w : Widths) (c : Command) : Bool := fitsWidth w.slotW (lastSlot c)

/-- Whether and why a command is refused (R121). The order of the tests is a DESIGN CHOICE (log 25). -/
def State.refusal (s : State) (c : Command) : Option RefuseReason :=
  if s.status = .busy then some .whileBusy
  else if c.spacing = 0 then some .spacingZero
  else if operandsFit s.widths c = false then some .operandWidth
  else if blockFits s.widths c = false then some .addressWidth
  else if slotsFit s.widths c = false then some .slotWidth
  else none

end Sys2Proof.Machine
end

