-- ==== Sys2Proof/Machine/Flags.lean ====
section
/-! DEFINITION. The block has no flags and no condition codes (R32). It computes two predicates for each nibble and uses
them at once; the stop tests of R250 use the second. -/

namespace Sys2Proof.Machine

/-- `in_window = (G ≥ INTRA_OFFSET)` (R32, R252). -/
def State.inWindow (s : State) : Bool := decide (s.intraOffset ≤ s.g)

/-- `quota_open = (SAMPLES_DONE < SAMPLES_TO_DO)` (R32, R252). -/
def State.quotaOpen (s : State) : Bool := decide (s.samplesDone < s.samplesToDo)

/-- The write test of step 5 (R252). -/
def State.writes (s : State) : Bool := s.inWindow && s.quotaOpen

end Sys2Proof.Machine
end

