-- ==== Sys2Proof/Machine/Ops.lean ====
section
/-! DEFINITION. The named operations over the two memories and the registers: `MemRead`, `OutWrite`, the sequencer, the
start and the end of a call, `raise ReadFault`, reset. -/

namespace Sys2Proof.Machine

/-- The value listed at an address, if any. -/
def Memory.read {α : Type} : List (Nat × α) → Nat → Option α
  | [], _ => none
  | (b, w) :: rest, a => if b = a then some w else Memory.read rest a

/-- Write one address, keeping the addresses rising. An unlisted address reads as `none`, which no listed value equals, so
no write ever removes an entry. -/
def Memory.write {α : Type} : List (Nat × α) → Nat → α → List (Nat × α)
  | [], a, v => [(a, v)]
  | (b, w) :: rest, a, v =>
    if a < b then (a, v) :: (b, w) :: rest
    else if a = b then (a, v) :: rest
    else (b, w) :: Memory.write rest a v

/-- Take an address out. -/
def Memory.erase {α : Type} : List (Nat × α) → Nat → List (Nat × α)
  | [], _ => []
  | (b, w) :: rest, a => if b = a then Memory.erase rest a else (b, w) :: Memory.erase rest a

/-- The canonical form: addresses strictly rising. -/
def Memory.wf {α : Type} : List (Nat × α) → Bool
  | [] => true
  | [_] => true
  | (a, _) :: (b, w) :: rest => decide (a < b) && Memory.wf ((b, w) :: rest)

/-- Write consecutive bytes from an address. The decoder never writes the byte source (R60): this is the host's. -/
def Memory.writeBytes (m : List Host.Cell) (a : Nat) : List Byte → List Host.Cell
  | [] => m
  | b :: bs => Memory.writeBytes (Memory.write m a b) (a + 1) bs

/-- The source can supply all `n` bytes from `a` (R301: a read fails as a whole). -/
def Memory.readable (m : List Host.Cell) (a : Nat) : Nat → Bool
  | 0 => true
  | n + 1 => (Memory.read m a).isSome && Memory.readable m (a + 1) n

/-- The `n` bytes from `a`. A byte the source cannot supply has the placeholder 0 here; no register is ever loaded from
one, because the read that would fetch it fails first (R301; log 2). -/
def Memory.bytesAt (m : List Host.Cell) (a : Nat) : Nat → List Byte
  | 0 => []
  | n + 1 => (Memory.read m a).getD 0 :: Memory.bytesAt m (a + 1) n

/-- The value `MemRead(a, n)` returns when the bytes are there (R10, R63). -/
def Memory.value (m : List Host.Cell) (a n : Nat) : Nat := leNat (Memory.bytesAt m a n)

/-- The byte source is asked for a read (R40). -/
def State.logRead (s : State) (a n : Nat) : State := { s with readLog := s.readLog ++ [(a, n)] }

/-- `OutWrite(slot, v)` (R10, R62): replace one slot, touch no other. The write is complete here: there is no store buffer and
nothing to flush (R39, R72), so no fence is needed and none exists (R74). -/
def State.outWrite (s : State) (slot : Nat) (v : Half) : State := { s with outBuf := Memory.write s.outBuf slot v }

/-- The position after a decoded nibble (R29): `K`, then `J`, then `I` advances. After (7, 3, 7) there is no next position;
the register keeps its value there (log 24). -/
def SeqPos.next (p : SeqPos) : SeqPos :=
  if p.k.val < 7 then { p with k := p.k + 1 }
  else if p.j.val < 3 then ⟨p.i, p.j + 1, 0⟩
  else if p.i.val < 7 then ⟨p.i + 1, 0, 0⟩
  else p

/-- The place in the loop of R250 after the nibble at a position: the next nibble of the word, the next word's boundary, or
past the last nibble of the block. -/
def SeqPos.nextStage (p : SeqPos) : Stage :=
  if p.k.val < 7 then .nibble
  else if p.j.val < 3 ∨ p.i.val < 7 then .boundary
  else .exhausted

/-- `SEQ <- next` (R10, R29, R250). -/
def State.seqNext (s : State) : State := { s with pos := s.pos.next, stage := s.pos.nextStage }

/-- The header latches, history and working registers hold unspecified values: fresh ones at the start of a call (R20,
R38), any at its end (U7). `SHIFT` keeps its bound, 7 to 22 (R26). Free values, log 10. -/
def State.freshDatapath (s : State) : State :=
  { s with
    coefBits := Config.freeWord s.draws
    shiftBits := Config.freeWord (s.draws + 1)
    hist1 := Config.freeWord (s.draws + 2)
    hist2 := Config.freeWord (s.draws + 3)
    nibWord := Config.freeWord (s.draws + 4)
    coef1 := Config.freeByte s.draws
    coef2 := Config.freeByte (s.draws + 1)
    shift := BitVec.ofNat 5 (7 + Config.freeNat s.draws % 16)
    draws := s.draws + 5 }

/-- `SAMPLES_WRITTEN` and `FAULT_INFO` are not valid (R35, R38): free values, the first within its bound 0 to 256 (log
11). DESIGN CHOICE (log 11): the address and width in a `FAULT_INFO` that is not valid are any naturals. -/
def State.freshResults (s : State) : State :=
  { s with
    samplesWritten := Config.freeNat s.draws % 257
    faultInfo := ⟨Config.freeNat (s.draws + 1), Config.freeNat (s.draws + 2), Config.freeNat (s.draws + 3)⟩
    draws := s.draws + 4 }

/-- `count` slots from `slot` at a stride, each holding a free value (R305). -/
def freeSlots (buf : List (Nat × Half)) (slot spacing draw : Nat) : (count : Nat) → List (Nat × Half)
  | 0 => buf
  | m + 1 => Memory.write (freeSlots buf slot spacing draw m) (slot + m * spacing) (Config.freeHalf (draw + m))

/-- Every slot of the call's window holds an unspecified value; no other slot changes (R305, C9). Log 9. -/
def State.freeWindow (s : State) : State :=
  { s with
    outBuf := freeSlots s.outBuf s.outSlot s.channelSpacing s.draws s.windowSize
    draws := s.draws + s.windowSize }

/-- `raise ReadFault(err)` at `MemRead(addr, n)` (R304): `FAULT_INFO`, `STATUS`, the call ends. The window's slots are
then unspecified (R305), and so are the datapath registers (U7). THE one way an exception is taken. Nothing returns from
it: there is no return and no nesting (R306). -/
def State.takeReadFault (s : State) (addr n : Nat) : State :=
  { s.freeWindow.freshDatapath with
    status := .fault
    faultInfo := ⟨Config.sourceError s.source addr n, addr, n⟩ }

/-- Make reads in order (R66): each is asked of the source, and the first that fails ends the call (R303). `k` goes on
when all of them succeed. -/
def State.memReads (s : State) (reads : List (Nat × Nat)) (k : State → Host.Outcome State Fault Refusal) :
    Host.Outcome State Fault Refusal :=
  match reads with
  | [] => k s
  | (a, n) :: rest =>
    if Memory.readable s.source a n then (s.logRead a n).memReads rest k
    else .next ((s.logRead a n).takeReadFault a n)

/-- An accepted command (R120 up to `HDR`): `STATUS`, the operand registers, `LOCATE` (R141 to R143), and the call's
initial values (R38, R341). The next step stands before `HDR`. -/
def State.startCall (s : State) (c : Command) : State :=
  let t := s.freshResults.freshDatapath
  { t with
    status := .busy
    streamBase := c.base
    outSlot := c.out
    channelSpacing := c.spacing
    firstSample := c.first
    samplesToDo := c.count
    blockIndex := locateIndex c.first
    intraOffset := locateOffset c.first
    blockAddr := locateAddr c.base c.first
    pos := ⟨0, 0, 0⟩
    g := 0
    samplesDone := 0
    stage := .header
    reply := .accepted }

/-- A refused command (R308): no register changes, nothing is read or written. The reply says why (log 4). -/
def State.refuse (s : State) (r : RefuseReason) : State := { s with reply := .refused r }

/-- The end of a call as the host sees it: `STATUS` is not `BUSY`. It is the block's only synchronisation point (R72, R74): every
read and write of the call is made, and nothing is read or written until the next command. -/
def State.callOver (s : State) : Bool := decide (s.status ≠ .busy)

/-- `stop` (R250), the end of a call in `DONE` (R120 last line, R123). It writes no slot: every write of the call was complete
before it (R72). The datapath registers hold nothing anyone may rely
on (U7). -/
def State.finish (s : State) : State :=
  { s.freshDatapath with samplesWritten := s.samplesDone, status := .done }

/-- Reset (R340): `STATUS` is `IDLE`, a call in progress is abandoned with its window as after a fault, and every other
register is unspecified, within the bounds the spec gives as numbers. The byte source, the rest of the output buffer and the
host's side stay. Free values, log 13. DESIGN CHOICE (log 13): where a width of R6 is finite, the spec does not say whether an
unspecified operand register or `BLOCK_ADDR` still fits it (R33, R34); here they are any naturals, fitting or not. -/
def State.powerOn (s : State) : State :=
  let t := (if s.status = .busy then s.freeWindow else s).freshResults.freshDatapath
  { t with
    status := .idle
    streamBase := Config.freeNat t.draws
    outSlot := Config.freeNat (t.draws + 1)
    channelSpacing := 1 + Config.freeNat (t.draws + 2)
    firstSample := Config.freeNat (t.draws + 3)
    samplesToDo := Config.freeNat (t.draws + 4)
    blockIndex := Config.freeNat (t.draws + 5)
    intraOffset := Config.freeNat (t.draws + 6) % 256
    blockAddr := Config.freeNat (t.draws + 7)
    pos := ⟨Fin.ofNat 8 (Config.freeNat (t.draws + 8)), Fin.ofNat 4 (Config.freeNat (t.draws + 9)),
      Fin.ofNat 8 (Config.freeNat (t.draws + 10))⟩
    g := Config.freeNat (t.draws + 11) % 257
    samplesDone := Config.freeNat (t.draws + 12) % 257
    stage := .header
    reply := .none
    draws := t.draws + 13 }

end Sys2Proof.Machine
end

