-- ==== Sys2Proof/Machine/Command.lean ====
section
/-! DEFINITION. `DECODE` (40_decode_command.md). -/

namespace Sys2Proof.Machine

/-- `DECODE` (R120, R121): refused, or accepted. When it is accepted the call runs on as the machine's next steps: `HDR`,
then the loop of R250, then the end of the call (log 1). -/
def execDecode (base out spacing first count : Nat) (s : State) : Host.Outcome State Fault Refusal :=
  match s.refusal ⟨base, out, spacing, first, count⟩ with
  | some r => .next (s.refuse r)
  | none => .next (s.startCall ⟨base, out, spacing, first, count⟩)

end Sys2Proof.Machine
end

