-- ==== Sys2Proof/Machine/Descriptor.lean ====
section
/-! DEFINITION. The sixteen subframe descriptors (43_coefficient_table.md). They read no memory, raise nothing, and touch
neither the history nor the counters (R172). -/

namespace Sys2Proof.Machine

/-- `MODEn` (R172): begin a subframe with the pair the opcode selects (R170, R171) and the effective shift (R101). `NIBW`
stands next (R250). -/
def beginSubframe (coefIndex shiftFactor : Nibble) (s : State) : State :=
  { s with
    coef1 := (coefPair coefIndex).1
    coef2 := (coefPair coefIndex).2
    shift := effectiveShift shiftFactor
    stage := .fetch }

/-- `MODE0` (R173). -/
def execMode0 (shiftFactor : Nibble) (s : State) : Host.Outcome State Fault Refusal :=
  .next (beginSubframe 0 shiftFactor s)

/-- `MODE1` (R174). -/
def execMode1 (shiftFactor : Nibble) (s : State) : Host.Outcome State Fault Refusal :=
  .next (beginSubframe 1 shiftFactor s)

/-- `MODE2` (R175). -/
def execMode2 (shiftFactor : Nibble) (s : State) : Host.Outcome State Fault Refusal :=
  .next (beginSubframe 2 shiftFactor s)

/-- `MODE3` (R176). -/
def execMode3 (shiftFactor : Nibble) (s : State) : Host.Outcome State Fault Refusal :=
  .next (beginSubframe 3 shiftFactor s)

/-- `MODE4` (R177). -/
def execMode4 (shiftFactor : Nibble) (s : State) : Host.Outcome State Fault Refusal :=
  .next (beginSubframe 4 shiftFactor s)

/-- `MODE5` (R178). -/
def execMode5 (shiftFactor : Nibble) (s : State) : Host.Outcome State Fault Refusal :=
  .next (beginSubframe 5 shiftFactor s)

/-- `MODE6` (R179). -/
def execMode6 (shiftFactor : Nibble) (s : State) : Host.Outcome State Fault Refusal :=
  .next (beginSubframe 6 shiftFactor s)

/-- `MODE0.A7` (R180). -/
def execMode0A7 (shiftFactor : Nibble) (s : State) : Host.Outcome State Fault Refusal :=
  .next (beginSubframe 7 shiftFactor s)

/-- `MODE1.A8` (R181). -/
def execMode1A8 (shiftFactor : Nibble) (s : State) : Host.Outcome State Fault Refusal :=
  .next (beginSubframe 8 shiftFactor s)

/-- `MODE2.A9` (R182). -/
def execMode2A9 (shiftFactor : Nibble) (s : State) : Host.Outcome State Fault Refusal :=
  .next (beginSubframe 9 shiftFactor s)

/-- `MODE3.A10` (R183). -/
def execMode3A10 (shiftFactor : Nibble) (s : State) : Host.Outcome State Fault Refusal :=
  .next (beginSubframe 10 shiftFactor s)

/-- `MODE4.A11` (R184). -/
def execMode4A11 (shiftFactor : Nibble) (s : State) : Host.Outcome State Fault Refusal :=
  .next (beginSubframe 11 shiftFactor s)

/-- `MODE5.A12` (R185). -/
def execMode5A12 (shiftFactor : Nibble) (s : State) : Host.Outcome State Fault Refusal :=
  .next (beginSubframe 12 shiftFactor s)

/-- `MODE6.A13` (R186). -/
def execMode6A13 (shiftFactor : Nibble) (s : State) : Host.Outcome State Fault Refusal :=
  .next (beginSubframe 13 shiftFactor s)

/-- `MODE0.A14` (R187). -/
def execMode0A14 (shiftFactor : Nibble) (s : State) : Host.Outcome State Fault Refusal :=
  .next (beginSubframe 14 shiftFactor s)

/-- `MODE1.A15` (R188). -/
def execMode1A15 (shiftFactor : Nibble) (s : State) : Host.Outcome State Fault Refusal :=
  .next (beginSubframe 15 shiftFactor s)

end Sys2Proof.Machine
end

