-- ==== Sys2Proof/Machine/Header.lean ====
section
/-! DEFINITION. `HDR` (42_header_parser.md). -/

namespace Sys2Proof.Machine

/-- `HDR` (R150): four reads in order, each of which can raise `ReadFault`; then the two descriptor words and the two
sign-extended history values are loaded. The operand fields are what the reads return (log 2). A read that fails after an
earlier one succeeded leaves no register to tell: all four are unspecified after the fault (U7). -/
def execHdr (coefBits shiftBits : Word) (hist1 hist2 : Half) (s : State) : Host.Outcome State Fault Refusal :=
  s.memReads s.headerReads fun t =>
    .next { t with
      coefBits := coefBits
      shiftBits := shiftBits
      hist1 := sext16 hist1
      hist2 := sext16 hist2
      stage := .boundary }

end Sys2Proof.Machine
end

