-- ==== Sys2Proof/Machine/NibbleWord.lean ====
section
/-! DEFINITION. `NIBW` (44_nibble_unpacker.md). -/

namespace Sys2Proof.Machine

/-- `NIBW` (R200): one read of four bytes, which can raise `ReadFault`; then `NIBWORD` is loaded with what the read
returns, the operand word (log 2). Its nibbles stand next (R250). -/
def execNibw (word : Word) (s : State) : Host.Outcome State Fault Refusal :=
  s.memReads s.nibbleReads fun t => .next { t with nibWord := word, stage := .nibble }

end Sys2Proof.Machine
end

