-- ==== Sys2Proof/Machine/Sample.lean ====
section
/-! DEFINITION. `SAMPLE` (44_nibble_unpacker.md R202, 45_prediction_pipeline.md R220 to R224, 46_output_window_sequencer.md
R252 to R254). -/

namespace Sys2Proof.Machine

/-- The datapath temporaries of one `SAMPLE` (R28). They carry nothing to the next nibble, so no field of `State` holds
them. Exact integers: with the history in its 16-bit range nothing reaches 32 bits (R227; log 17). -/
structure Datapath where
  scaledNibble : Int
  predicted    : Int
  shifted      : Int
  clamped      : Int
  deriving DecidableEq, Repr

/-- Step 1 (R202): sign-extend and scale in one shift. -/
def scaleNibble (n : Nibble) (shift : Nat) : Int := asr (lsl32 n.toNat nibbleLeftShift) shift

/-- Step 2 (R220): `scaled_nibble - HIST2·COEF2 + HIST1·COEF1`. -/
def predict (scaled hist1 hist2 coef1 coef2 : Int) : Int := scaled - hist2 * coef2 + hist1 * coef1

/-- Step 3 (R221): scale down by 64, rounding toward negative infinity. -/
def scaleDown (predicted : Int) : Int := asr predicted roundShift

/-- Steps 1 to 4 on a nibble (R224). -/
def State.datapath (s : State) (n : Nibble) : Datapath :=
  let scaled := scaleNibble n s.shift.toNat
  let predicted := predict scaled s.hist1.toInt s.hist2.toInt s.coef1.toInt s.coef2.toInt
  let shifted := scaleDown predicted
  ⟨scaled, predicted, shifted, clamp16 shifted⟩

/-- Step 5 (R252, R253): write the clamped value at the next output slot if the test holds, else discard it. -/
def State.emit (s : State) (v : Int) : State :=
  if s.writes then { s.outWrite s.nextSlot (BitVec.ofInt 16 v) with samplesDone := s.samplesDone + 1 } else s

/-- Step 6 (R223): the old `HIST1` goes to `HIST2`, the clamped value to `HIST1`, written or discarded. -/
def State.updateHistory (s : State) (v : Int) : State := { s with hist1 := BitVec.ofInt 32 v, hist2 := s.hist1 }

/-- `G <- G + 1` (R224, R251). -/
def State.countSample (s : State) : State := { s with g := s.g + 1 }

/-- Steps 5 and 6 with a clamped value, then `SEQ <- next` (R224, R250). -/
def State.takeSample (s : State) (v : Int) : State := (((s.emit v).countSample).updateHistory v).seqNext

/-- `SAMPLE` (R224): the six steps. It reads no memory and raises nothing. -/
def execSample (n : Nibble) (s : State) : Host.Outcome State Fault Refusal :=
  .next (s.takeSample (s.datapath n).clamped)

end Sys2Proof.Machine
end

