-- ==== Sys2Proof/Machine/Dispatch.lean ====
section
/-! DEFINITION. One arm per instruction, each one call of its meaning. -/

namespace Sys2Proof.Machine

/-- The meaning of an instruction in a state. -/
def exec (i : Instr) (s : State) : Host.Outcome State Fault Refusal :=
  match i with
  | .decode base out spacing first count => Sys2Proof.Machine.execDecode base out spacing first count s
  | .hdr coefBits shiftBits hist1 hist2 => Sys2Proof.Machine.execHdr coefBits shiftBits hist1 hist2 s
  | .mode0 shiftFactor => Sys2Proof.Machine.execMode0 shiftFactor s
  | .mode1 shiftFactor => Sys2Proof.Machine.execMode1 shiftFactor s
  | .mode2 shiftFactor => Sys2Proof.Machine.execMode2 shiftFactor s
  | .mode3 shiftFactor => Sys2Proof.Machine.execMode3 shiftFactor s
  | .mode4 shiftFactor => Sys2Proof.Machine.execMode4 shiftFactor s
  | .mode5 shiftFactor => Sys2Proof.Machine.execMode5 shiftFactor s
  | .mode6 shiftFactor => Sys2Proof.Machine.execMode6 shiftFactor s
  | .mode0A7 shiftFactor => Sys2Proof.Machine.execMode0A7 shiftFactor s
  | .mode1A8 shiftFactor => Sys2Proof.Machine.execMode1A8 shiftFactor s
  | .mode2A9 shiftFactor => Sys2Proof.Machine.execMode2A9 shiftFactor s
  | .mode3A10 shiftFactor => Sys2Proof.Machine.execMode3A10 shiftFactor s
  | .mode4A11 shiftFactor => Sys2Proof.Machine.execMode4A11 shiftFactor s
  | .mode5A12 shiftFactor => Sys2Proof.Machine.execMode5A12 shiftFactor s
  | .mode6A13 shiftFactor => Sys2Proof.Machine.execMode6A13 shiftFactor s
  | .mode0A14 shiftFactor => Sys2Proof.Machine.execMode0A14 shiftFactor s
  | .mode1A15 shiftFactor => Sys2Proof.Machine.execMode1A15 shiftFactor s
  | .nibw word => Sys2Proof.Machine.execNibw word s
  | .sample n => Sys2Proof.Machine.execSample n s

end Sys2Proof.Machine
end

