-- ==== Sys2Proof/Machine/Fetch.lean ====
section
/-! DEFINITION. What stands next in the loop of R250 and the bits of it: the block bytes for `HDR` and `NIBW`, the latched
header words for a descriptor (R96), `NIBWORD` for a nibble (R100). -/

namespace Sys2Proof.Machine

/-- The 96 header bits at `BLOCK_ADDR` (R92). -/
def State.headerBits (s : State) : BitVec 96 := BitVec.ofNat 96 (Memory.value s.source s.blockAddr 12)

/-- The 32 bits of nibble word `(I, J)` (R94, R200). -/
def State.wordBits (s : State) : BitVec 32 := BitVec.ofNat 32 (Memory.value s.source s.nibbleWordAddr 4)

/-- The instruction that stands next in a call, or `none` where R250 says `stop`. Stop test A stands at `boundary`, stop
test B at `nibble` (R256). -/
def State.upcoming (s : State) : Option Raw :=
  match s.stage with
  | .header => some (.h s.headerBits)
  | .boundary =>
    if s.quotaOpen then
      if s.pos.j.val = 0 then some (.d (s.descriptor s.pos.i.val)) else some (.w s.wordBits)
    else none
  | .fetch => some (.w s.wordBits)
  | .nibble => if s.quotaOpen then some (.n s.currentNibble) else none
  | .exhausted => none

/-- The quota is open, if need be by one sample. Only for `State.withFetchWord`. -/
def State.openQuota (s : State) : State :=
  { s with samplesToDo := if s.quotaOpen then s.samplesToDo else s.samplesDone + 1 }

/-- The host does nothing at the coming step, and a call is in progress. Only for `State.withFetchWord`. -/
def State.inCall (s : State) : State := { s with status := .busy, tape := none :: s.tape }

/-- The 12 bytes of a header placed at `BLOCK_ADDR`, with `HDR` next. -/
def State.placeHeader (s : State) (w : Nat) : State :=
  { s.inCall with source := Memory.writeBytes s.source s.blockAddr (leBytes 12 w), stage := .header }

/-- A descriptor placed in field `I` of the two header words, with its subframe's first boundary next. -/
def State.placeDescriptor (s : State) (w : Nat) : State :=
  { s.inCall.openQuota with
    coefBits := withNibble s.coefBits s.pos.i.val (BitVec.ofNat 4 w)
    shiftBits := withNibble s.shiftBits s.pos.i.val (BitVec.ofNat 4 (w / 16))
    pos := ⟨s.pos.i, 0, 0⟩
    stage := .boundary }

/-- A nibble word placed at its address, with `NIBW` next. -/
def State.placeWord (s : State) (w : Nat) : State :=
  { s.inCall with source := Memory.writeBytes s.source s.nibbleWordAddr (leBytes 4 w), stage := .fetch }

/-- A nibble placed at field `K` of `NIBWORD`, with `SAMPLE` next. -/
def State.placeNibble (s : State) (w : Nat) : State :=
  { s.inCall.openQuota with nibWord := withNibble s.nibWord s.pos.k.val (BitVec.ofNat 4 w), stage := .nibble }

/-- A command handed to the interface at the coming step; it has no bits, so its operand words are zeros (log 21). -/
def State.placeCommand (s : State) : State := { s with tape := some (.command ⟨0, 0, 0, 0, 0⟩) :: s.tape }

end Sys2Proof.Machine
end

