-- ==== Sys2Proof/Machine/Sequencer.lean ====
section
/-! DEFINITION. The two agents' turns: the host's (an event of the tape) and the decoder's (R250). -/

namespace Sys2Proof.Machine

/-- What the host does (log 3): a command is executed as the instruction it is; the rest acts on the host's memories or
resets the block. -/
def hostTurn (ev : HostEvent) (s : State) : Host.Outcome State Fault Refusal :=
  match ev with
  | .command c => exec (decodeRaw (.cmd c)) s
  | .reset => .next s.powerOn
  | .storeByte a b => .next { s with source := Memory.write s.source a b }
  | .dropByte a => .next { s with source := Memory.erase s.source a }
  | .storeSlot k v => .next { s with outBuf := Memory.write s.outBuf k v }

/-- The decoder's turn: in a call, the next instruction of R250's loop or its `stop`; between calls it waits for a command
and nothing changes (R35). -/
def decoderTurn (s : State) : Host.Outcome State Fault Refusal :=
  if s.status = .busy then
    match s.upcoming with
    | some raw => exec (decodeRaw raw) s
    | none => .next s.finish
  else .next s

end Sys2Proof.Machine
end

