-- ==== Sys2Proof/Machine/Step.lean ====
section
/-! DEFINITION. One step: the host's turn if the tape's head holds an event, else the decoder's. -/

namespace Sys2Proof.Machine

/-- One step of the machine (log 1, 3). -/
def step (s : State) : Host.Outcome State Fault Refusal :=
  match s.tape with
  | some ev :: rest => hostTurn ev { s with tape := rest }
  | none :: rest => decoderTurn { s with tape := rest }
  | [] => decoderTurn s

/-- The state with an instruction of the opcode table placed where the next step takes its instruction: the bytes at its
address, the fields of the latched words, or the command interface, with the place in the loop set to it (log 21). -/
def State.withFetchWord (s : State) (nbits w : Nat) : State :=
  match formatOfTableBits nbits with
  | some .h => s.placeHeader w
  | some .d => s.placeDescriptor w
  | some .w => s.placeWord w
  | some .n => s.placeNibble w
  | some .cmd => s.placeCommand
  | none => s

end Sys2Proof.Machine
end

