-- ==== Sys2Proof/Machine/Range.lean ====
section
/-! DEFINITION. The pseudo-instruction `DECODE_RANGE` (R108): the host's sequence of `DECODE` commands for a range that
crosses blocks, and the host's loop over it. The hardware executes only `DECODE`. -/

namespace Sys2Proof.Machine

/-- The samples of the next command: up to the end of the block `first` lies in (R108). -/
def rangeChunk (first count : Nat) : Nat := min count (blockSamples - first % blockSamples)

/-- The commands of R108's loop. Each round takes at least one sample, so `fuel = count` rounds are enough. -/
def decodeRangeFuel (base spacing : Nat) : (fuel first out count : Nat) → List Command
  | 0, _, _, _ => []
  | fuel + 1, first, out, count =>
    if count = 0 then []
    else
      let n := rangeChunk first count
      ⟨base, out, spacing, first, n⟩ :: decodeRangeFuel base spacing fuel (first + n) (out + n * spacing) (count - n)

/-- The commands of `DECODE_RANGE base out spacing first count` (R108), all of them; `issueCommands` says where the host
stops. -/
def decodeRange (base out spacing first count : Nat) : List Command :=
  decodeRangeFuel base spacing count first out count

/-- The steps a call can take: `HDR`, 8 descriptors, 32 `NIBW`, 256 `SAMPLE`, its end (R123, R345). -/
def callSteps : Nat := 1 + 8 + 32 + 256 + 1

/-- Step until the call is over. -/
def waitFuel : (fuel : Nat) → State → Host.Outcome State Fault Refusal
  | 0, s => .next s
  | fuel + 1, s =>
    if s.callOver then .next s
    else
      match step s with
      | .next t => waitFuel fuel t
      | .fault f => .fault f
      | .refused r => .refused r

/-- The host waits for the end of a call, the one point it can wait for (R72, R74). A step the host itself takes on
the tape is one more to wait for. -/
def State.awaitCall (s : State) : Host.Outcome State Fault Refusal := waitFuel (callSteps + s.tape.length) s

/-- The host's loop of R108 over the commands it has yet to issue: `DECODE`, wait for its end, `if STATUS = FAULT: stop`,
else the next (log 22). -/
def issueCommands : List Command → State → Host.Outcome State Fault Refusal
  | [], s => .next s
  | c :: rest, s =>
    match exec c.instr s with
    | .next t =>
      match t.awaitCall with
      | .next u => if u.status = .fault then .next u else issueCommands rest u
      | .fault f => .fault f
      | .refused r => .refused r
    | .fault f => .fault f
    | .refused r => .refused r

/-- `DECODE_RANGE` (R108), run by the host on a decoder. -/
def runRange (base out spacing first count : Nat) (s : State) : Host.Outcome State Fault Refusal :=
  issueCommands (decodeRange base out spacing first count) s

end Sys2Proof.Machine
end

