-- ==== Sys2Proof/Machine/Reference.lean ====
section
/-! DEFINITION. `S(g)` of R258: the sample of global index `g` when a whole block is decoded from its header. Written from
the closed forms (R201 in the byte stream, R203, R229), not from the step: what the step writes is stated equal to it. -/

namespace Sys2Proof.Machine

/-- The byte of the block at an offset; the source is taken to supply it. -/
def blockByte (m : List Host.Cell) (addr off : Nat) : Byte := (Memory.read m (addr + off)).getD 0

/-- Half of a byte: the low one for an even index, the high one for an odd (R64). -/
def halfOf (b : Byte) (i : Nat) : Nibble := if i % 2 = 0 then b.extractLsb' 0 4 else b.extractLsb' 4 4

/-- `COEF_INDEX[i]` from the byte stream (R64). -/
def blockCoefIndex (m : List Host.Cell) (addr i : Nat) : Nibble := halfOf (blockByte m addr (i / 2)) i

/-- `SHIFT_FACTOR[i]` from the byte stream (R64). -/
def blockShiftFactor (m : List Host.Cell) (addr i : Nat) : Nibble := halfOf (blockByte m addr (4 + i / 2)) i

/-- The nibble decoded at global index `g` (R201). -/
def blockNibble (m : List Host.Cell) (addr g : Nat) : Nibble := halfOf (blockByte m addr (12 + g / 2)) g

/-- A signed 16-bit header field (R63, R99). -/
def blockHalf (m : List Host.Cell) (addr off : Nat) : Int :=
  (blockByte m addr (off + 1) ++ blockByte m addr off : BitVec 16).toInt

/-- The closed form of a sample (R229): the nibble's contribution is exact, the prediction term is rounded down. -/
def closedSample (n shiftFactor coefIndex : Nibble) (h1 h2 : Int) : Int :=
  clamp16 (n.toInt * 2 ^ shiftFactor.toNat +
    ((coefPair coefIndex).1.toInt * h1 - (coefPair coefIndex).2.toInt * h2) / 64)

/-- The history before the sample of index `g`: the header's two values, then each sample in turn (R223, R254). -/
def blockHistory (m : List Host.Cell) (addr : Nat) : Nat → Int × Int
  | 0 => (blockHalf m addr 8, blockHalf m addr 10)
  | g + 1 =>
    let h := blockHistory m addr g
    (closedSample (blockNibble m addr g) (blockShiftFactor m addr (g / 32)) (blockCoefIndex m addr (g / 32)) h.1 h.2, h.1)

/-- `S(g)` (R258). -/
def blockSample (m : List Host.Cell) (addr g : Nat) : Int := (blockHistory m addr (g + 1)).1

end Sys2Proof.Machine
end

