-- ==== Sys2Proof/Safety.lean ====
section
/-! DEFINITION. The terms claims are stated in: whose turn a step is, when a command is accepted, the reads of a call in
closed form, and what holds of every state a run reaches (the ranges of the registers at all times, and inside a call the
relations the rules state between them). -/

namespace Sys2Proof.Machine

/-- The host does nothing at the coming step (log 3). -/
def State.hostSilent (s : State) : Prop := s.tape = [] ∨ ∃ rest, s.tape = none :: rest

/-- The state with the coming step's tape entry taken off. -/
def State.popped (s : State) : State := { s with tape := s.tape.tail }

/-- A command the decoder accepts (R35, R78, R121). -/
def State.accepts (s : State) (c : Command) : Prop :=
  s.status ≠ .busy ∧ 1 ≤ c.spacing ∧ operandsFit s.widths c = true ∧ blockFits s.widths c = true ∧
    slotsFit s.widths c = true

/-- How many nibble words a call reads (R257): none for quota 0, else those up to the last sample decoded. -/
def callWords (intraOffset count : Nat) : Nat :=
  if count = 0 then 0 else (min (intraOffset + count) 256 - 1) / 8 + 1

/-- The reads of a call that no failed read ends, in closed form (R257). -/
def callReads (addr intraOffset count : Nat) : List (Nat × Nat) :=
  [(addr + 0x00, 4), (addr + 0x04, 4), (addr + 0x08, 2), (addr + 0x0a, 2)] ++
    (List.range (callWords intraOffset count)).map fun w => (addr + 0x0c + 4 * w, 4)

/-- The source can supply every byte a call reads (R257, R302). -/
def callReadable (m : List Host.Cell) (addr intraOffset count : Nat) : Prop :=
  Memory.readable m addr (0x0c + 4 * callWords intraOffset count) = true

/-- A history register holds a 16-bit value (R23). -/
def histInRange (h : Word) : Prop := -32768 ≤ h.toInt ∧ h.toInt ≤ 32767

/-- The command the operand registers hold (R33). -/
def State.command (s : State) : Command :=
  ⟨s.streamBase, s.outSlot, s.channelSpacing, s.firstSample, s.samplesToDo⟩

/-- The position's global index (R29, R30). -/
def SeqPos.index (p : SeqPos) : Nat := 32 * p.i.val + 8 * p.j.val + p.k.val

/-- What `G` and the position are at each place of R250's loop (R29, R30). -/
def State.placeOk (s : State) : Prop :=
  match s.stage with
  | .header => s.pos = ⟨0, 0, 0⟩ ∧ s.g = 0
  | .boundary => s.pos.k = 0 ∧ s.g = s.pos.index
  | .fetch => s.pos.j = 0 ∧ s.pos.k = 0 ∧ s.g = s.pos.index
  | .nibble => s.g = s.pos.index
  | .exhausted => s.pos = ⟨7, 3, 7⟩ ∧ s.g = 256

/-- Whether the descriptor of subframe `I` has been executed (R26: it holds for the 32 nibbles). -/
def State.subframeBegun (s : State) : Prop :=
  s.stage = .fetch ∨ s.stage = .nibble ∨ (s.stage = .boundary ∧ s.pos.j ≠ 0)

/-- What holds inside a call. -/
structure State.CallInv (s : State) : Prop where
  /-- R141, R144 -/
  index    : s.blockIndex = locateIndex s.firstSample
  /-- R142, R144 -/
  offset   : s.intraOffset = locateOffset s.firstSample
  /-- R143, R144 -/
  addr     : s.blockAddr = locateAddr s.streamBase s.firstSample
  /-- R121 -/
  operands : operandsFit s.widths s.command = true
  /-- R78 -/
  block    : blockFits s.widths s.command = true
  /-- R78 -/
  slots    : slotsFit s.widths s.command = true
  /-- R252, R254: every sample decoded in the window was written, no other -/
  done     : s.samplesDone = s.g - s.intraOffset
  /-- R255 -/
  quota    : s.samplesDone ≤ s.samplesToDo
  /-- R29, R30 -/
  place    : s.placeOk
  /-- R23 -/
  history  : s.stage ≠ .header → histInRange s.hist1 ∧ histInRange s.hist2
  /-- R26, R172 -/
  subframe : s.subframeBegun →
    (s.coef1, s.coef2) = coefPair (s.coefIndex s.pos.i.val) ∧ s.shift = effectiveShift (s.shiftFactor s.pos.i.val)

/-- What holds of every reachable state. -/
structure State.Inv (s : State) : Prop where
  source_wf : Memory.wf s.source = true
  outBuf_wf : Memory.wf s.outBuf = true
  /-- R35 -/
  written   : s.samplesWritten ≤ 256
  /-- R34 -/
  offset    : s.intraOffset < 256
  /-- R33 -/
  spacing   : 1 ≤ s.channelSpacing
  /-- R26 -/
  shift     : 7 ≤ s.shift.toNat ∧ s.shift.toNat ≤ 22
  /-- R30 -/
  g         : s.g ≤ 256
  /-- R31 -/
  samplesDone : s.samplesDone ≤ 256
  call      : s.status = .busy → s.CallInv

end Sys2Proof.Machine
end

