-- ==== Sys2Proof/Certificates/Slice0/Obligations.lean ====
section
/-! DEFINITION. The statements for the provers, from the numbered rules of spec/. `s` and `t` are any states, reached by a run
or not, unless a premise says otherwise. -/

open Sys2Proof Sys2Proof.Machine

/-! Encoding (30_encoding.md) -/

/-- R92, R94 to R98, R104: encoding and decoding are inverse, both ways, on every instruction and every raw word. -/
def Obligations.RawWordsRoundTripBothWays : Prop :=
  (∀ i : Instr, decodeRaw (encodeRaw i) = i) ∧ ∀ r : Raw, encodeRaw (decodeRaw r) = r

/-- R63, R92, R94, R96: the little-endian bytes of an instruction decode to it, whatever follows them. -/
def Obligations.EncodedBytesDecodeToTheirInstr : Prop :=
  ∀ (i : Instr) (rest : List Byte), i.format ≠ .cmd → decodeBytes i.format (encodeBytes i ++ rest) = .ok (i, rest)

/-- The other direction: what the byte decoder accepts is the encoding of what it answers. -/
def Obligations.AcceptedBytesAreTheEncoding : Prop :=
  ∀ (f : Format) (bs : List Byte) (i : Instr) (rest : List Byte),
    decodeBytes f bs = .ok (i, rest) → i.format = f ∧ bs = encodeBytes i ++ rest

/-- R104: no illegal encoding. Any 12 bytes are a header, any byte a descriptor, any 4 bytes a nibble word, and a list is
turned away only when it is too short. -/
def Obligations.NoEncodingIsIllegal : Prop :=
  ∀ (f : Format) (bs : List Byte), f = .h ∨ f = .d ∨ f = .w →
    (formatBytes f ≤ bs.length → ∃ i, decodeBytes f bs = .ok (i, bs.drop (formatBytes f))) ∧
    (bs.length < formatBytes f → decodeBytes f bs = .error (.tooShort f bs.length))

/-- R103: each of the 256 descriptor words matches one row of the opcode map, the one whose mnemonic its decoding has. -/
def Obligations.DescriptorWordsMatchOneOpcodeRow : Prop :=
  ∀ d : BitVec 8,
    (descriptorRows.filter fun r => d &&& r.2.2 == r.2.1).map (fun r => r.1) = [(decodeDescriptor d).mnemonic]

/-- The spec's own example words of R150, R172, R200 and R202. (That the nibble stands alone in the low half of one byte is the
model's choice, log 21.) -/
def Obligations.ExampleWordsDecodeAsTheSpecSays : Prop :=
  decodeBytes .h [0x10, 0x32, 0x64, 0xf9, 0x30, 0x85, 0xca, 0x2f, 0x34, 0x12, 0x30, 0xf8] =
      .ok (.hdr 0xF9643210 0x2FCA8530 0x1234 0xF830, []) ∧
    decodeBytes .d [0xF9] = .ok (.mode2A9 15, []) ∧
    decodeBytes .w [0xef, 0xcd, 0xab, 0x89] = .ok (.nibw 0x89ABCDEF, []) ∧
    decodeBytes .n [0x0D] = .ok (.sample 0xD, [])

/-- R64, R201: the nibble of global index `g`, taken from its word by position, is the half of the byte at block offset
`0x0c + g div 2`; likewise the two descriptor fields in the header. -/
def Obligations.NibblePositionsInTheByteStream : Prop :=
  ∀ (m : List Host.Cell) (a g i : Nat), i < 8 →
    nibbleOf (BitVec.ofNat 32 (Memory.value m (a + 0x0c + 4 * (g / 8)) 4)) (g % 8) = blockNibble m a g ∧
    nibbleOf (BitVec.ofNat 32 (Memory.value m a 4)) i = blockCoefIndex m a i ∧
    nibbleOf (BitVec.ofNat 32 (Memory.value m (a + 4) 4)) i = blockShiftFactor m a i

/-! The step (46_output_window_sequencer.md, R250) -/

/-- When the bits at the place that stands next decode to an instruction, the step is `exec` of that instruction on the state
with the tape's entry taken off; a command on the tape is executed as the `DECODE` it is. -/
def Obligations.StepRunsTheDecodedInstruction : Prop :=
  ∀ (s : State) (i : Instr),
    (∀ c rest, s.tape = some (.command c) :: rest →
      step s = exec (.decode c.base c.out c.spacing c.first c.count) { s with tape := rest }) ∧
    (s.hostSilent → s.status = .busy →
      (s.stage = .header → decodeBytes .h (Memory.bytesAt s.source s.blockAddr 12) = .ok (i, []) →
        step s = exec i s.popped) ∧
      (s.stage = .boundary → s.samplesDone < s.samplesToDo → s.pos.j = 0 →
        decodeBytes .d [s.shiftBits.extractLsb' (4 * s.pos.i.val) 4 ++ s.coefBits.extractLsb' (4 * s.pos.i.val) 4] =
          .ok (i, []) →
        step s = exec i s.popped) ∧
      (s.stage = .fetch ∨ (s.stage = .boundary ∧ s.samplesDone < s.samplesToDo ∧ s.pos.j ≠ 0) →
        decodeBytes .w
          (Memory.bytesAt s.source (s.blockAddr + 0x0c + 0x10 * s.pos.i.val + 0x04 * s.pos.j.val) 4) = .ok (i, []) →
        step s = exec i s.popped) ∧
      (s.stage = .nibble → s.samplesDone < s.samplesToDo →
        i = .sample (s.nibWord.extractLsb' (4 * s.pos.k.val) 4) → step s = exec i s.popped))

/-- An instruction of the opcode table placed by `withFetchWord` is what the very next step runs, from any state. -/
def Obligations.PlacedInstructionRunsNext : Prop :=
  ∀ (s : State) (nbits w : Nat) (i : Instr), decodeTableWord nbits w = some i →
    step (s.withFetchWord nbits w) = exec i (s.withFetchWord nbits w).popped

/-- R35: between calls, with no command, nothing changes. -/
def Obligations.NothingChangesBetweenCalls : Prop :=
  ∀ s : State, s.hostSilent → s.status ≠ .busy → step s = .next s.popped

/-- R120, R123, R250, R255: where the loop stops (block exhausted, or quota met at a stop test) the call ends in `DONE` with the
count of samples written, and neither memory is touched. (That the end is a step of its own is the model's choice, log 1.) -/
def Obligations.StopEndsTheCallInDone : Prop :=
  ∀ s : State, s.hostSilent → s.status = .busy →
    s.stage = .exhausted ∨ ((s.stage = .boundary ∨ s.stage = .nibble) ∧ s.samplesToDo ≤ s.samplesDone) →
    ∃ t, step s = .next t ∧ t.status = .done ∧ t.samplesWritten = s.samplesDone ∧ t.outBuf = s.outBuf ∧
      t.source = s.source ∧ t.readLog = s.readLog

/-- R104, R123, R300: nothing stops the machine. Every step of every state answers a next state. -/
def Obligations.EveryStepAnswersNext : Prop := ∀ s : State, ∃ t, step s = .next t

/-- R123, R345: a call the host leaves alone ends, in `DONE` or in `FAULT`, within 300 steps, from any state inside it. -/
def Obligations.EveryCallEnds : Prop :=
  ∀ s : State, s.status = .busy → s.tape = [] →
    ∃ k ≤ 300, ∃ t, Host.Core.run Sys2Proof.core k s = .next t ∧ (t.status = .done ∨ t.status = .fault)

/-- The invariant of Safety.lean (R23, R26, R29 to R31, R33 to R35, R78, R144, R252, and the canonical form of both memories)
is kept by every step, the host's turns among them. -/
def Obligations.InvariantKeptByEveryStep : Prop := ∀ s t : State, s.Inv → step s = .next t → t.Inv

/-- The invariant holds after reset. -/
def Obligations.InvariantHoldsAtReset : Prop := State.reset.Inv

/-! DECODE (40_decode_command.md, 41_block_locator.md) -/

/-- R33, R38, R120, R121, R141 to R143, R341: an accepted `DECODE` completes; the operand registers hold the operands, the locator
registers the located block, the sequencer stands at the start, and nothing is read or written. (That the instruction itself ends
there, with `HDR` next, is the model's choice, log 1; that the position, `G` and `SAMPLES_DONE` are set at acceptance and not after
`HDR` is read from R38's table, log 23.) -/
def Obligations.AcceptedCommandStartsTheCall : Prop :=
  ∀ (s : State) (base out spacing first count : Nat), s.accepts ⟨base, out, spacing, first, count⟩ →
    ∃ t, exec (.decode base out spacing first count) s = .next t ∧
      t.status = .busy ∧ t.streamBase = base ∧ t.outSlot = out ∧ t.channelSpacing = spacing ∧ t.firstSample = first ∧
      t.samplesToDo = count ∧ t.blockIndex = first / 256 ∧ t.intraOffset = first % 256 ∧
      t.blockAddr = base + 0x8c * (first / 256) ∧ t.pos = ⟨0, 0, 0⟩ ∧ t.g = 0 ∧ t.samplesDone = 0 ∧ t.stage = .header ∧
      t.source = s.source ∧ t.outBuf = s.outBuf ∧ t.readLog = s.readLog

/-- R308, R121: a `DECODE` that is not accepted (`channel_spacing` 0, a width of R6 exceeded, `STATUS = BUSY`) completes
without changing any register, reading or writing anything. (R308 leaves the form of a refusal open: that it is a next state, and
the reply port this statement leaves out, are the model's choice, log 4.) -/
def Obligations.RefusedCommandChangesNothing : Prop :=
  ∀ (s : State) (c : Command),
    s.status = .busy ∨ c.spacing = 0 ∨ operandsFit s.widths c = false ∨
      fitsWidth s.widths.addrW (c.base + 0x8c * (c.first / 256) + 0x8b) = false ∨
      fitsWidth s.widths.slotW (c.out + (min c.count (256 - c.first % 256) - 1) * c.spacing) = false →
    ∃ t, exec c.instr s = .next t ∧ { t with reply := s.reply } = s

/-- Log 4: the reply port says whether a command was accepted. -/
def Obligations.ReplyTellsWhetherAccepted : Prop :=
  ∀ (s : State) (c : Command), ∃ t, exec c.instr s = .next t ∧ (t.reply = .accepted ↔ s.accepts c) ∧
    (s.status = .busy → t.reply = .refused .whileBusy)

/-- R20, R125: an accepted command forgets everything: two decoders with the same memories, host side, widths and count of free
values are in the SAME state after it, whatever their registers held. (That `exec` of `DECODE` only starts the call: log 1. That equal
counts give equal free values to what the spec leaves unspecified: log 10, 11 and 14.) -/
def Obligations.AcceptedCommandForgetsThePast : Prop :=
  ∀ (s t : State) (c : Command), s.accepts c → t.accepts c → s.source = t.source → s.outBuf = t.outBuf →
    s.readLog = t.readLog → s.tape = t.tape → s.widths = t.widths → s.draws = t.draws →
    exec c.instr s = exec c.instr t

/-- R145: two ways to name the same block. Same `BLOCK_ADDR`, same `INTRA_OFFSET`, and for any number of steps, under the same
host events, the same reads, writes and results. -/
def Obligations.TwoNamesOfABlockRunAlike : Prop :=
  ∀ (s : State) (b q r out spacing count : Nat), r < 256 →
    s.accepts ⟨b, out, spacing, 256 * q + r, count⟩ → s.accepts ⟨b + 0x8c * q, out, spacing, r, count⟩ →
    ∃ t u, exec (.decode b out spacing (256 * q + r) count) s = .next t ∧
      exec (.decode (b + 0x8c * q) out spacing r count) s = .next u ∧
      t.blockAddr = u.blockAddr ∧ t.intraOffset = u.intraOffset ∧
      ∀ k, ∃ t' u', Host.Core.run Sys2Proof.core k t = .next t' ∧ Host.Core.run Sys2Proof.core k u = .next u' ∧
        t'.readLog = u'.readLog ∧ t'.outBuf = u'.outBuf ∧ t'.status = u'.status ∧
        t'.samplesWritten = u'.samplesWritten ∧ t'.faultInfo = u'.faultInfo

/-- Frame of `exec` of `DECODE`, accepted or refused: the byte source, every output slot, the reads made, the host's tape and the
widths are as before; when it is refused, so is every register. (For an accepted command the slots and the reads are as before
because `exec` of `DECODE` ends before `HDR`, and the rest of R120 is the steps that follow: the model's choice, log 1. That a refused
command is a next state, and the reply port left out here, are log 4's.) -/
def Obligations.CommandFrame : Prop :=
  ∀ (s t : State) (c : Command), exec c.instr s = .next t →
    (∀ a, Memory.read t.source a = Memory.read s.source a) ∧ (∀ k, Memory.read t.outBuf k = Memory.read s.outBuf k) ∧
    t.readLog = s.readLog ∧ t.tape = s.tape ∧ t.widths = s.widths ∧
    (¬ s.accepts c → { t with reply := s.reply } = s)

/-- R141 to R143: `LOCATE`. At every moment of a call, from its acceptance to its end, the locator registers hold the block index,
the offset inside the block and the block address of the command. -/
def Obligations.LocateHoldsThroughTheCall : Prop :=
  ∀ (s : State) (base out spacing first count : Nat), s.accepts ⟨base, out, spacing, first, count⟩ → s.tape = [] →
    ∃ t, exec (.decode base out spacing first count) s = .next t ∧ t.status = .busy ∧
      ∀ k, ∃ u, Host.Core.run Sys2Proof.core k t = .next u ∧
        (u.status = .busy → u.blockIndex = first / 256 ∧ u.intraOffset = first % 256 ∧
          u.blockAddr = base + 0x8c * (first / 256))

/-! HDR (42_header_parser.md) -/

/-- R150: the step at `HDR` makes the four reads in order; if all succeed the four registers hold what they returned, the history
sign-extended; the first that fails ends the call in `FAULT`, and the later ones are not made. -/
def Obligations.HeaderReadsOrFaults : Prop :=
  ∀ s : State, s.hostSilent → s.status = .busy → s.stage = .header →
    (Memory.readable s.source (s.blockAddr + 0x00) 4 = true → Memory.readable s.source (s.blockAddr + 0x04) 4 = true →
      Memory.readable s.source (s.blockAddr + 0x08) 2 = true → Memory.readable s.source (s.blockAddr + 0x0a) 2 = true →
      ∃ t, step s = .next t ∧
        t.coefBits.toNat = Memory.value s.source (s.blockAddr + 0x00) 4 ∧
        t.shiftBits.toNat = Memory.value s.source (s.blockAddr + 0x04) 4 ∧
        t.hist1.toInt = (BitVec.ofNat 16 (Memory.value s.source (s.blockAddr + 0x08) 2)).toInt ∧
        t.hist2.toInt = (BitVec.ofNat 16 (Memory.value s.source (s.blockAddr + 0x0a) 2)).toInt ∧
        t.readLog = s.readLog ++
          [(s.blockAddr + 0x00, 4), (s.blockAddr + 0x04, 4), (s.blockAddr + 0x08, 2), (s.blockAddr + 0x0a, 2)]) ∧
    (∀ pre a n post,
      [(s.blockAddr + 0x00, 4), (s.blockAddr + 0x04, 4), (s.blockAddr + 0x08, 2), (s.blockAddr + 0x0a, 2)] =
        pre ++ (a, n) :: post →
      (∀ r ∈ pre, Memory.readable s.source r.1 r.2 = true) → Memory.readable s.source a n = false →
      ∃ t, step s = .next t ∧ t.status = .fault ∧ t.faultInfo.addr = a ∧ t.faultInfo.size = n ∧
        t.readLog = s.readLog ++ pre ++ [(a, n)])

/-- `HDR` completes on every operand where its four reads succeed, and loads its fields (R92, R99, R150). -/
def Obligations.HdrCompletes : Prop :=
  ∀ (s : State) (coefBits shiftBits : Word) (hist1 hist2 : Half),
    Memory.readable s.source (s.blockAddr + 0x00) 4 = true → Memory.readable s.source (s.blockAddr + 0x04) 4 = true →
    Memory.readable s.source (s.blockAddr + 0x08) 2 = true → Memory.readable s.source (s.blockAddr + 0x0a) 2 = true →
    ∃ t, exec (.hdr coefBits shiftBits hist1 hist2) s = .next t ∧
      t.coefBits = coefBits ∧ t.shiftBits = shiftBits ∧ t.hist1.toInt = hist1.toInt ∧ t.hist2.toInt = hist2.toInt ∧
      t.status = s.status ∧ t.pos = s.pos ∧ t.g = s.g ∧ t.stage = .boundary

/-! The descriptors (43_coefficient_table.md) -/

/-- R172 (with R101, R170, R171): at the start of subframe `I`, if the quota is open, the step loads the table entry of
`COEF_INDEX[I] mod 7` and the shift `0x16 - SHIFT_FACTOR[I]`, touches neither history nor counters nor memory, and `NIBW` stands
next. -/
def Obligations.DescriptorSelectsPairAndShift : Prop :=
  ∀ s : State, s.hostSilent → s.status = .busy → s.stage = .boundary → s.samplesDone < s.samplesToDo → s.pos.j = 0 →
    ∃ t, step s = .next t ∧
      [((0 : Int), (0 : Int)), (60, 0), (122, 60), (115, 52), (98, 55), (0, 0), (0, 0)][
        (s.coefBits.extractLsb' (4 * s.pos.i.val) 4).toNat % 7]? = some (t.coef1.toInt, t.coef2.toInt) ∧
      t.shift.toNat = 0x16 - (s.shiftBits.extractLsb' (4 * s.pos.i.val) 4).toNat ∧
      t.stage = .fetch ∧ t.hist1 = s.hist1 ∧ t.hist2 = s.hist2 ∧ t.g = s.g ∧ t.samplesDone = s.samplesDone ∧
      t.readLog = s.readLog ∧ t.outBuf = s.outBuf

/-- What a descriptor rule (R173 to R188) says: the opcode is the low half of the descriptor byte and the shift factor the high
half; the descriptor completes with the pair `(c1, c2)` and the effective shift; and every `SAMPLE` run with the pair and the shift
it loads gives `clamp16(v · 2^s + f h1 h2)`. -/
def descriptorGives (i : Nibble → Instr) (coefIndex : Nibble) (c1 c2 : Int) (f : Int → Int → Int) : Prop :=
  ∀ (sf : Nibble) (s : State), decodeDescriptor (sf ++ coefIndex) = i sf ∧
    ∃ t, exec (i sf) s = .next t ∧ t.coef1.toInt = c1 ∧ t.coef2.toInt = c2 ∧ t.shift.toNat = 0x16 - sf.toNat ∧
      ∀ (n : Nibble) (u : State), u.coef1 = t.coef1 → u.coef2 = t.coef2 → u.shift = t.shift →
        ∃ v, exec (.sample n) u = .next v ∧
          v.hist1.toInt = clamp16 (n.toInt * 2 ^ sf.toNat + f u.hist1.toInt u.hist2.toInt)

/-- R173 to R179: the seven modes. (The last clause: with shift factor 0 the raw mode's sample is the nibble's value.) -/
def Obligations.SevenModesGiveTheirSample : Prop :=
  descriptorGives .mode0 0 0 0 (fun _ _ => 0) ∧
    descriptorGives .mode1 1 60 0 (fun h1 _ => asr (60 * h1) 6) ∧
    descriptorGives .mode2 2 122 60 (fun h1 h2 => asr (122 * h1 - 60 * h2) 6) ∧
    descriptorGives .mode3 3 115 52 (fun h1 h2 => asr (115 * h1 - 52 * h2) 6) ∧
    descriptorGives .mode4 4 98 55 (fun h1 h2 => asr (98 * h1 - 55 * h2) 6) ∧
    descriptorGives .mode5 5 0 0 (fun _ _ => 0) ∧
    descriptorGives .mode6 6 0 0 (fun _ _ => 0) ∧
    ∀ n : Nibble, clamp16 (n.toInt * 2 ^ 0) = n.toInt

/-- R180 to R188: the nine alias encodings. -/
def Obligations.NineAliasesGiveTheirSample : Prop :=
  descriptorGives .mode0A7 7 0 0 (fun _ _ => 0) ∧
    descriptorGives .mode1A8 8 60 0 (fun h1 _ => asr (60 * h1) 6) ∧
    descriptorGives .mode2A9 9 122 60 (fun h1 h2 => asr (122 * h1 - 60 * h2) 6) ∧
    descriptorGives .mode3A10 10 115 52 (fun h1 h2 => asr (115 * h1 - 52 * h2) 6) ∧
    descriptorGives .mode4A11 11 98 55 (fun h1 h2 => asr (98 * h1 - 55 * h2) 6) ∧
    descriptorGives .mode5A12 12 0 0 (fun _ _ => 0) ∧
    descriptorGives .mode6A13 13 0 0 (fun _ _ => 0) ∧
    descriptorGives .mode0A14 14 0 0 (fun _ _ => 0) ∧
    descriptorGives .mode1A15 15 60 0 (fun h1 _ => asr (60 * h1) 6)

/-- Frame of the sixteen descriptors (R172): only `COEF1`, `COEF2`, `SHIFT` and the place in the loop may change; every byte of
both memories is as before. -/
def Obligations.DescriptorFrame : Prop :=
  ∀ (i : Instr) (s t : State), i.format = .d → exec i s = .next t →
    { t with coef1 := s.coef1, coef2 := s.coef2, shift := s.shift, stage := s.stage } = s ∧
    (∀ a, Memory.read t.source a = Memory.read s.source a) ∧ (∀ k, Memory.read t.outBuf k = Memory.read s.outBuf k)

/-! NIBW (44_nibble_unpacker.md) -/

/-- R200: the step at `NIBW` makes one read of four bytes; `NIBWORD` holds what it returned and the word's nibbles stand next, or
the call ends in `FAULT`. A word the call does not reach, the quota being met, is not fetched. -/
def Obligations.NibbleWordReadsOrFaults : Prop :=
  (∀ (s : State) (a : Nat), s.hostSilent → s.status = .busy →
    s.stage = .fetch ∨ (s.stage = .boundary ∧ s.samplesDone < s.samplesToDo ∧ s.pos.j ≠ 0) →
    a = s.blockAddr + 0x0c + 0x10 * s.pos.i.val + 0x04 * s.pos.j.val →
    (Memory.readable s.source a 4 = true → ∃ t, step s = .next t ∧ t.nibWord.toNat = Memory.value s.source a 4 ∧
      t.stage = .nibble ∧ t.pos = s.pos ∧ t.readLog = s.readLog ++ [(a, 4)]) ∧
    (Memory.readable s.source a 4 = false → ∃ t, step s = .next t ∧ t.status = .fault ∧ t.faultInfo.addr = a ∧
      t.faultInfo.size = 4 ∧ t.readLog = s.readLog ++ [(a, 4)])) ∧
  (∀ s : State, s.hostSilent → s.status = .busy → s.stage = .boundary → s.samplesToDo ≤ s.samplesDone →
    ∃ t, step s = .next t ∧ t.status = .done ∧ t.readLog = s.readLog)

/-- `NIBW` completes on every word where its read succeeds (R94, R200). -/
def Obligations.NibwCompletes : Prop :=
  ∀ (s : State) (word : Word),
    Memory.readable s.source (s.blockAddr + 0x0c + 0x10 * s.pos.i.val + 0x04 * s.pos.j.val) 4 = true →
    ∃ t, exec (.nibw word) s = .next t ∧ t.nibWord = word ∧ t.status = s.status ∧ t.pos = s.pos ∧ t.g = s.g ∧
      t.hist1 = s.hist1 ∧ t.hist2 = s.hist2 ∧ t.stage = .nibble

/-- Frame of `HDR` and `NIBW`, whether their reads succeed or not: the operand and locator registers, position and counters,
`SAMPLES_WRITTEN`, the tape, the widths and every byte of the source are as before, and so is every slot outside the call's
window. Where every read succeeds, every slot is, and so are `STATUS`, `FAULT_INFO`, the pair and the shift; `NIBW` then leaves
the header words and the history, `HDR` leaves `NIBWORD`. (After a fault the position and the counters stay by R41, log 27,
and `SAMPLES_WRITTEN`, not valid then, by log 11; the reply port is the model's, log 4.) -/
def Obligations.HeaderAndNibbleWordFrame : Prop :=
  ∀ (i : Instr) (s t : State), i.format = .h ∨ i.format = .w → exec i s = .next t →
    t.streamBase = s.streamBase ∧ t.outSlot = s.outSlot ∧ t.channelSpacing = s.channelSpacing ∧
    t.firstSample = s.firstSample ∧ t.samplesToDo = s.samplesToDo ∧ t.blockIndex = s.blockIndex ∧
    t.intraOffset = s.intraOffset ∧ t.blockAddr = s.blockAddr ∧ t.pos = s.pos ∧ t.g = s.g ∧
    t.samplesDone = s.samplesDone ∧ t.samplesWritten = s.samplesWritten ∧ t.tape = s.tape ∧ t.widths = s.widths ∧
    t.reply = s.reply ∧
    (∀ a, Memory.read t.source a = Memory.read s.source a) ∧
    (∀ k, (∀ m < min s.samplesToDo (256 - s.intraOffset), k ≠ s.outSlot + m * s.channelSpacing) →
      Memory.read t.outBuf k = Memory.read s.outBuf k) ∧
    ((∀ r ∈ (if i.format = .h then s.headerReads else s.nibbleReads), Memory.readable s.source r.1 r.2 = true) →
      (∀ k, Memory.read t.outBuf k = Memory.read s.outBuf k) ∧ t.status = s.status ∧ t.faultInfo = s.faultInfo ∧
      t.coef1 = s.coef1 ∧ t.coef2 = s.coef2 ∧ t.shift = s.shift ∧
      (i.format = .w → t.coefBits = s.coefBits ∧ t.shiftBits = s.shiftBits ∧ t.hist1 = s.hist1 ∧ t.hist2 = s.hist2) ∧
      (i.format = .h → t.nibWord = s.nibWord))

/-! SAMPLE (45_prediction_pipeline.md, 46_output_window_sequencer.md) -/

/-- R202, R203, R205: step 1 in closed form, its range, and that it is a multiple of 64, for every nibble and shift factor. -/
def Obligations.ScalingClosedForm : Prop :=
  ∀ (n sf : Nibble),
    scaleNibble n (22 - sf.toNat) = n.toInt * 2 ^ (6 + sf.toNat) ∧ scaleNibble n (22 - sf.toNat) % 64 = 0 ∧
      -16777216 ≤ scaleNibble n (22 - sf.toNat) ∧ scaleNibble n (22 - sf.toNat) ≤ 14680064

/-- R225: the arithmetic right shift is floor division, the unique `q` with `q·2^n ≤ v < (q + 1)·2^n`: the truncated quotient for
`v ≥ 0`, one less for a negative `v` that is no multiple; on a word it copies the sign bit into the vacated positions. -/
def Obligations.ShiftRoundsDown : Prop :=
  (∀ (v q : Int) (n : Nat), asr v n = q ↔ q * 2 ^ n ≤ v ∧ v < (q + 1) * 2 ^ n) ∧
  (∀ (v : Int) (n : Nat), (0 ≤ v → asr v n = v.tdiv (2 ^ n)) ∧
    (v < 0 → v % 2 ^ n ≠ 0 → asr v n = v.tdiv (2 ^ n) - 1)) ∧
  (∀ (x : Word) (n : Nat), asr x.toInt n = (x.sshiftRight n).toInt)

/-- R229: the closed form of a sample. Only the prediction term is rounded, and it is rounded down. -/
def Obligations.SampleClosedForm : Prop :=
  ∀ (s : State) (n sf : Nibble), s.shift.toNat = 22 - sf.toNat →
    ∃ t, exec (.sample n) s = .next t ∧
      t.hist1.toInt = clamp16 (n.toInt * 2 ^ sf.toNat +
        (s.coef1.toInt * s.hist1.toInt - s.coef2.toInt * s.hist2.toInt) / 64)

/-- R227: with the history in its 16-bit range, `predicted` and `shifted` stay within the stated bounds for every nibble, shift
factor and table entry, and the bounds of `predicted` are reached. -/
def Obligations.NoIntermediateOverflows : Prop :=
  (∀ (s : State) (n sf ci : Nibble), histInRange s.hist1 → histInRange s.hist2 → (s.coef1, s.coef2) = coefPair ci →
    s.shift = effectiveShift sf →
    -22740932 ≤ (s.datapath n).predicted ∧ (s.datapath n).predicted ≤ 20643718 ∧
      -355328 ≤ (s.datapath n).shifted ∧ (s.datapath n).shifted ≤ 322558) ∧
  (∃ (n : Nibble), predict (scaleNibble n 7) (-32768) 32767 122 60 = -22740932) ∧
  (∃ (n : Nibble), predict (scaleNibble n 7) 32767 (-32768) 122 60 = 20643718)

/-- R223, R224, R252: `SAMPLE` completes in every state. `v` is the clamped value of steps 1 to 4. It is written at the next slot if
and only if `G ≥ INTRA_OFFSET` and the quota is open; written or discarded, `G` counts it and the history advances. In a call it is
the nibble at `K` of `NIBWORD` that the step runs it on. -/
def Obligations.SampleCompletes : Prop :=
  ∀ (s : State) (n : Nibble) (v : Int),
    v = clamp16 (asr (asr (lsl32 n.toNat 28) s.shift.toNat - s.hist2.toInt * s.coef2.toInt +
      s.hist1.toInt * s.coef1.toInt) 6) →
    (∃ t, exec (.sample n) s = .next t ∧ t.g = s.g + 1 ∧ t.hist2 = s.hist1 ∧ t.hist1.toInt = v ∧
      (s.intraOffset ≤ s.g ∧ s.samplesDone < s.samplesToDo →
        t.samplesDone = s.samplesDone + 1 ∧
        t.outBuf = Memory.write s.outBuf (s.outSlot + s.samplesDone * s.channelSpacing) (BitVec.ofInt 16 v) ∧
        ∃ w, Memory.read t.outBuf (s.outSlot + s.samplesDone * s.channelSpacing) = some w ∧ w.toInt = v) ∧
      (¬ (s.intraOffset ≤ s.g ∧ s.samplesDone < s.samplesToDo) →
        t.samplesDone = s.samplesDone ∧ t.outBuf = s.outBuf)) ∧
    (s.hostSilent → s.status = .busy → s.stage = .nibble → s.samplesDone < s.samplesToDo →
      n = s.nibWord.extractLsb' (4 * s.pos.k.val) 4 → step s = exec (.sample n) s.popped)

/-- Frame of `SAMPLE`: every register but `HIST1`, `HIST2`, `G`, `SAMPLES_DONE`, the position and the place in the loop is as
before, no byte of the source changes, no read is made, and no slot but the one `State.nextSlot` names is touched; none at all
where the write test of R252 fails. -/
def Obligations.SampleFrame : Prop :=
  ∀ (s t : State) (n : Nibble), exec (.sample n) s = .next t →
    { t with hist1 := s.hist1, hist2 := s.hist2, g := s.g, samplesDone := s.samplesDone, pos := s.pos,
             stage := s.stage, outBuf := s.outBuf } = s ∧
    (∀ a, Memory.read t.source a = Memory.read s.source a) ∧
    (∀ k, k ≠ s.nextSlot → Memory.read t.outBuf k = Memory.read s.outBuf k) ∧
    (s.writes = false → ∀ k, Memory.read t.outBuf k = Memory.read s.outBuf k)

/-- R29, R250: `SEQ <- next`. After a nibble the position's index `32·I + 8·J + K` has grown by one, within a word the next nibble
stands next, at its end the next word's boundary; after (7, 3, 7) the block is exhausted. -/
def Obligations.SequencerCountsThroughTheBlock : Prop :=
  ∀ (s : State) (n : Nibble), ∃ t, exec (.sample n) s = .next t ∧
    (s.pos ≠ ⟨7, 3, 7⟩ → 32 * t.pos.i.val + 8 * t.pos.j.val + t.pos.k.val =
      32 * s.pos.i.val + 8 * s.pos.j.val + s.pos.k.val + 1 ∧
      (s.pos.k ≠ 7 → t.stage = .nibble) ∧ (s.pos.k = 7 → t.stage = .boundary ∧ t.pos.k = 0)) ∧
    (s.pos = ⟨7, 3, 7⟩ → t.stage = .exhausted)

/-- R230: in mode 1 with a zero nibble at shift factor 0, the values of `HIST1` that a `SAMPLE` leaves as they are are exactly
-15 to 0: a negative start never decays to 0. -/
def Obligations.ModeOneFixedPoints : Prop :=
  ∀ s : State, histInRange s.hist1 → s.coef1 = 60 → s.coef2 = 0 → s.shift = 22 →
    ∃ t, exec (.sample 0) s = .next t ∧ (t.hist1 = s.hist1 ↔ -15 ≤ s.hist1.toInt ∧ s.hist1.toInt ≤ 0)

/-! Faults and reset (60_exceptions.md, 70_reset_and_hazards.md) -/

/-- R301, R303 to R306: a read that fails raises `ReadFault` at once and no later read is made. `STATUS` is `FAULT` and
`FAULT_INFO` holds the source's error value for that read, with its address and width (the value is an open
constant of the source's contents and the read, the model's choice, log 7); neither the source nor a slot outside the
call's window changes, each slot of the window holds some value, and the call is over: with the host silent nothing changes any
more. -/
def Obligations.ReadFaultEndsTheCall : Prop :=
  ∀ (s t : State) (a n : Nat) (rest : List (Nat × Nat)) (k : State → Host.Outcome State Fault Refusal),
    Memory.readable s.source a n = false → t = (s.logRead a n).takeReadFault a n →
    s.memReads ((a, n) :: rest) k = .next t ∧
    t.status = .fault ∧ t.faultInfo = ⟨Config.sourceError s.source a n, a, n⟩ ∧ t.source = s.source ∧
    t.readLog = s.readLog ++ [(a, n)] ∧
    (∀ slot, (∀ m < min s.samplesToDo (256 - s.intraOffset), slot ≠ s.outSlot + m * s.channelSpacing) →
      Memory.read t.outBuf slot = Memory.read s.outBuf slot) ∧
    (∀ m < min s.samplesToDo (256 - s.intraOffset),
      (Memory.read t.outBuf (s.outSlot + m * s.channelSpacing)).isSome = true) ∧
    (t.hostSilent → step t = .next t.popped)

/-- R340: reset. `STATUS` is `IDLE`, and stays so until the host acts; the byte source and every slot outside an abandoned call's
window are as before, each slot of that window holds some value; with no call in progress every slot is as before. -/
def Obligations.ResetAbandonsTheCall : Prop :=
  ∀ (s : State) (rest : List (Option HostEvent)), s.tape = some .reset :: rest →
    ∃ t, step s = .next t ∧ t.status = .idle ∧ t.source = s.source ∧
      (∀ k, (∀ m < min s.samplesToDo (256 - s.intraOffset), k ≠ s.outSlot + m * s.channelSpacing) →
        Memory.read t.outBuf k = Memory.read s.outBuf k) ∧
      (s.status = .busy → ∀ m < min s.samplesToDo (256 - s.intraOffset),
        (Memory.read t.outBuf (s.outSlot + m * s.channelSpacing)).isSome = true) ∧
      (s.status ≠ .busy → t.outBuf = s.outBuf) ∧
      (t.hostSilent → step t = .next t.popped)

/-- R35, R38, R340: after power-on `STATUS` is `IDLE`, so a command is accepted, and neither memory has been touched. (That the
whole-block command fits is the model's choice of unbounded widths after reset, log 5; that nothing is listed or was read, log 6, 8
and 15.) -/
def Obligations.PowerOnIsIdle : Prop :=
  State.reset.status = .idle ∧ State.reset.readLog = [] ∧ State.reset.outBuf = [] ∧
    State.reset.accepts ⟨0, 0, 1, 0, 256⟩

/-! The whole machine -/

/-- R60: the decoder never writes the byte source (only the host's own stores change it), and never reads the output buffer: with
any other contents there a step makes the same state but for the contents, and slot by slot either it leaves the slot alone in both
or it puts the same value there. -/
def Obligations.SourceNeverWrittenOutputNeverRead : Prop :=
  (∀ s t : State, step s = .next t →
    (∀ a b rest, s.tape ≠ some (.storeByte a b) :: rest) → (∀ a rest, s.tape ≠ some (.dropByte a) :: rest) →
    t.source = s.source) ∧
  (∀ (s t : State) (buf : List (Nat × Half)), step s = .next t →
    ∃ buf', step { s with outBuf := buf } = .next { t with outBuf := buf' } ∧
      ∀ slot, (Memory.read t.outBuf slot = Memory.read s.outBuf slot ∧ Memory.read buf' slot = Memory.read buf slot) ∨
        Memory.read buf' slot = Memory.read t.outBuf slot)

/-- R122: a command never reads a byte outside the block at `BLOCK_ADDR`. Every step only appends to the reads asked, and each new
read lies within the 0x8c bytes of the block. -/
def Obligations.ReadsStayInsideTheBlock : Prop :=
  ∀ s t : State, step s = .next t →
    ∃ new, t.readLog = s.readLog ++ new ∧
      ∀ r ∈ new, s.blockAddr ≤ r.1 ∧ r.1 + r.2 ≤ s.blockAddr + 0x8c

/-- R124: `samples_to_do = 0`. If the header can be read, the call makes the four header reads and no other, writes nothing, and
ends in `DONE` with `SAMPLES_WRITTEN = 0`, two steps after its acceptance; if not, it ends in `FAULT`. -/
def Obligations.ZeroQuotaReadsTheHeaderOnly : Prop :=
  ∀ (s : State) (base out spacing first a : Nat), s.accepts ⟨base, out, spacing, first, 0⟩ → s.tape = [] →
    a = base + 0x8c * (first / 256) →
    ∃ t, exec (.decode base out spacing first 0) s = .next t ∧
      (Memory.readable s.source a 12 = true → ∃ u, Host.Core.run Sys2Proof.core 2 t = .next u ∧
        u.status = .done ∧ u.samplesWritten = 0 ∧ u.outBuf = s.outBuf ∧
        u.readLog = s.readLog ++ [(a, 4), (a + 0x04, 4), (a + 0x08, 2), (a + 0x0a, 2)]) ∧
      (Memory.readable s.source a 12 = false → ∃ u, Host.Core.run Sys2Proof.core 1 t = .next u ∧ u.status = .fault ∧
        u.outBuf = s.outBuf)

/-- R258 (with R120, R122, R251, R253): a call that is accepted, is left alone by the host and can read the bytes it needs ends in
`DONE` having written, for `m` below `N = min(q, 256 - r)`, the sample `S(r + m)` of the block at slot
`OUT_SLOT + m·CHANNEL_SPACING`, and nothing else. `S` is `blockSample`, the closed form computed from the block's bytes. -/
def Obligations.CallWritesItsWindow : Prop :=
  ∀ (s : State) (base out spacing first count r a : Nat), s.accepts ⟨base, out, spacing, first, count⟩ → s.tape = [] →
    r = first % 256 → a = base + 0x8c * (first / 256) → callReadable s.source a r count →
    ∃ t k u, exec (.decode base out spacing first count) s = .next t ∧ k ≤ 300 ∧
      Host.Core.run Sys2Proof.core k t = .next u ∧ u.status = .done ∧
      u.samplesWritten = min count (256 - r) ∧
      (∀ m < min count (256 - r), ∃ w, Memory.read u.outBuf (out + m * spacing) = some w ∧
        w.toInt = blockSample s.source a (r + m)) ∧
      (∀ slot, (∀ m < min count (256 - r), slot ≠ out + m * spacing) →
        Memory.read u.outBuf slot = Memory.read s.outBuf slot)

/-- R257: the reads of such a call, in closed form, and how many nibbles it decodes: `w` is the state in which it stops, where `G` has
counted the nibbles of global index 0 to `L` and no other. -/
def Obligations.CallMakesTheseReads : Prop :=
  ∀ (s : State) (base out spacing first count r a : Nat), s.accepts ⟨base, out, spacing, first, count⟩ → s.tape = [] →
    r = first % 256 → a = base + 0x8c * (first / 256) → callReadable s.source a r count →
    ∃ t k w u, exec (.decode base out spacing first count) s = .next t ∧ k ≤ 300 ∧
      Host.Core.run Sys2Proof.core k t = .next w ∧ w.status = .busy ∧
      w.g = (if count = 0 then 0 else min (r + count) 256) ∧
      step w = .next u ∧ u.status = .done ∧ u.readLog = s.readLog ++ callReads a r count

/-- R260: a range inside one block, decoded in one call or in two pieces, leaves the same values in the same slots. -/
def Obligations.SplittingARangeGivesTheSameSlots : Prop :=
  ∀ (s : State) (base out spacing first n m : Nat), 1 ≤ m → first % 256 + n + m ≤ 256 → s.tape = [] →
    s.accepts ⟨base, out, spacing, first, n + m⟩ → s.accepts ⟨base, out, spacing, first, n⟩ →
    s.accepts ⟨base, out + n * spacing, spacing, first + n, m⟩ →
    Memory.readable s.source (base + 0x8c * (first / 256)) 0x8c = true →
    ∃ t0 k t u0 i u v0 j v,
      exec (.decode base out spacing first (n + m)) s = .next t0 ∧ Host.Core.run Sys2Proof.core k t0 = .next t ∧
      t.status = .done ∧
      exec (.decode base out spacing first n) s = .next u0 ∧ Host.Core.run Sys2Proof.core i u0 = .next u ∧
      u.status = .done ∧
      exec (.decode base (out + n * spacing) spacing (first + n) m) u = .next v0 ∧
      Host.Core.run Sys2Proof.core j v0 = .next v ∧ v.status = .done ∧
      ∀ slot, Memory.read v.outBuf slot = Memory.read t.outBuf slot

/-- R108: the expansion of `DECODE_RANGE`. The counts add up to the range, every command stays inside one block, the commands
follow one another in samples and slots, and every command after the first starts a block. -/
def Obligations.RangeIsSplitAtBlocks : Prop :=
  ∀ base out spacing first count : Nat,
    ((decodeRange base out spacing first count).map fun c => c.count).sum = count ∧
    (∀ c ∈ decodeRange base out spacing first count,
      c.base = base ∧ c.spacing = spacing ∧ 1 ≤ c.count ∧ c.first % 256 + c.count ≤ 256) ∧
    (∀ c rest, decodeRange base out spacing first count = c :: rest → c.first = first ∧ c.out = out) ∧
    (∀ pre c d post, decodeRange base out spacing first count = pre ++ c :: d :: post →
      d.first = c.first + c.count ∧ d.out = c.out + c.count * spacing ∧ d.first % 256 = 0)

/-- R108: the loop of `DECODE_RANGE`, one round. Nothing happens for a count of 0. Else the host issues `DECODE` for
`n = min(c, 256 - f mod 256)` samples and waits until `STATUS` leaves `BUSY`, in the state `u`; if `STATUS` is `FAULT` there it
stops, else it goes on with `f + n`, `o + n·spacing` and `c - n` from `u`, and what is left then starts a block. (That
the host waits step by step for the call's end is the model's form of the loop, log 22.) -/
def Obligations.RangeLoopStopsAtAFault : Prop :=
  (∀ (s : State) (base out spacing first : Nat), runRange base out spacing first 0 s = .next s) ∧
  ∀ (s : State) (base out spacing first count n : Nat), 0 < count → n = min count (256 - first % 256) →
    (n < count → (first + n) % 256 = 0) ∧
    ∃ t k u, exec (.decode base out spacing first n) s = .next t ∧ k ≤ 300 + s.tape.length ∧
      (∀ j < k, ∃ w, Host.Core.run Sys2Proof.core j t = .next w ∧ w.status = .busy) ∧
      Host.Core.run Sys2Proof.core k t = .next u ∧ u.status ≠ .busy ∧
      (u.status = .fault → runRange base out spacing first count s = .next u) ∧
      (u.status ≠ .fault → runRange base out spacing first count s =
        runRange base (out + n * spacing) spacing (first + n) (count - n) u)

/-- R125: the outcome of a call is a function of the operands and of the bytes. Two decoders with any past, or one decoder before and
after any other calls, that accept the same command on the same source make, step by step, the same reads and have the same
`STATUS`; in `DONE` the same count and the same value in every slot of the window; in `FAULT` the same `FAULT_INFO`; and neither
touches a slot outside the window. (After a fault nothing is said of the window's slots, which R305 leaves
unspecified. That the source's error value is a function of its contents and the read: log 7.) -/
def Obligations.OutcomeDependsOnOperandsAndBytesOnly : Prop :=
  ∀ (s t : State) (base out spacing first count : Nat), s.accepts ⟨base, out, spacing, first, count⟩ →
    t.accepts ⟨base, out, spacing, first, count⟩ → s.source = t.source → s.tape = [] → t.tape = [] →
    ∃ s0 t0, exec (.decode base out spacing first count) s = .next s0 ∧
      exec (.decode base out spacing first count) t = .next t0 ∧
      ∀ k, ∃ u v new, Host.Core.run Sys2Proof.core k s0 = .next u ∧ Host.Core.run Sys2Proof.core k t0 = .next v ∧
        u.status = v.status ∧ u.readLog = s.readLog ++ new ∧ v.readLog = t.readLog ++ new ∧
        (u.status = .done → u.samplesWritten = v.samplesWritten ∧
          ∀ m < min count (256 - first % 256), ∃ w, Memory.read u.outBuf (out + m * spacing) = some w ∧
            Memory.read v.outBuf (out + m * spacing) = some w) ∧
        (u.status = .fault → u.faultInfo = v.faultInfo) ∧
        (∀ slot, (∀ m < min count (256 - first % 256), slot ≠ out + m * spacing) →
          Memory.read u.outBuf slot = Memory.read s.outBuf slot ∧ Memory.read v.outBuf slot = Memory.read t.outBuf slot)

/-- R72, R74: the end of a call is the block's only synchronisation point, and no instruction is one. No instruction changes
`STATUS` but a `DECODE` that starts a call and an `HDR` or `NIBW` whose read fails. The write of a `SAMPLE` is complete when it has
run. The step that ends a call in `DONE` reads and writes nothing more, so the host that sees `DONE` sees every write; and once a
call is over nothing is read or written, however many steps follow, until the host acts. (That a write and the end of the call
are steps of their own is the model's choice, log 1.) -/
def Obligations.EndOfCallIsTheOnlySynchronisation : Prop :=
  (∀ (i : Instr) (s t : State), exec i s = .next t →
    t.status = s.status ∨ (i.format = .cmd ∧ s.callOver = true ∧ t.status = .busy) ∨
      ((i.format = .h ∨ i.format = .w) ∧ t.status = .fault)) ∧
  (∀ (s : State) (n : Nibble), s.writes = true → ∃ t, exec (.sample n) s = .next t ∧
    Memory.read t.outBuf s.nextSlot = some (BitVec.ofInt 16 (s.datapath n).clamped)) ∧
  (∀ s t : State, s.hostSilent → s.callOver = false → step s = .next t → t.status = .done →
    t.callOver = true ∧ t.outBuf = s.outBuf ∧ t.readLog = s.readLog ∧ t.source = s.source) ∧
  (∀ s : State, s.tape = [] → s.callOver = true → ∀ k, Host.Core.run Sys2Proof.core k s = .next s)
end

