-- ==== Sys2Proof/Laws/Memory.lean ====
section
/-! SUPPORT. The laws of the two memories: a read after a write, what a write leaves alone, and that every memory operation
keeps the canonical form. -/

namespace Sys2Proof.Machine

@[simp] theorem Memory.read_write_same {α : Type} (m : List (Nat × α)) (a : Nat) (v : α) :
    Memory.read (Memory.write m a v) a = some v := by
  induction m with
  | nil => simp [Memory.write, Memory.read]
  | cons p rest ih =>
    obtain ⟨b, w⟩ := p
    simp only [Memory.write]
    split
    · simp [Memory.read]
    · split
      · simp [Memory.read]
      · rw [Memory.read, if_neg (by omega)]
        exact ih

theorem Memory.read_write_other {α : Type} (m : List (Nat × α)) {a c : Nat} (v : α) (h : c ≠ a) :
    Memory.read (Memory.write m a v) c = Memory.read m c := by
  induction m with
  | nil => simp [Memory.write, Memory.read, h.symm]
  | cons p rest ih =>
    obtain ⟨b, w⟩ := p
    simp only [Memory.write]
    split
    · simp [Memory.read, h.symm]
    · split
      · next hab => subst hab; simp [Memory.read, h.symm]
      · simp only [Memory.read, ih]

/-- One address of a written memory, in one lemma. -/
theorem Memory.read_write {α : Type} (m : List (Nat × α)) (a c : Nat) (v : α) :
    Memory.read (Memory.write m a v) c = if c = a then some v else Memory.read m c := by
  split
  · next h => subst h; simp
  · next h => exact Memory.read_write_other m v h

theorem Memory.read_erase {α : Type} (m : List (Nat × α)) (a c : Nat) :
    Memory.read (Memory.erase m a) c = if c = a then none else Memory.read m c := by
  induction m with
  | nil => simp [Memory.erase, Memory.read]
  | cons p rest ih =>
    obtain ⟨b, w⟩ := p
    simp only [Memory.erase]
    split
    · next hba =>
      rw [ih]
      split
      · rfl
      · next hc => rw [Memory.read, if_neg (by omega)]
    · next hba =>
      simp only [Memory.read, ih]
      split
      · next hbc => rw [if_neg (by omega)]
      · rfl

/-- Canonical form in terms of the head and the rest. -/
theorem Memory.wf_cons {α : Type} (a : Nat) (v : α) (m : List (Nat × α)) :
    Memory.wf ((a, v) :: m) = true ↔ (∀ b w rest, m = (b, w) :: rest → a < b) ∧ Memory.wf m = true := by
  cases m with
  | nil => simp [Memory.wf]
  | cons p rest =>
    obtain ⟨b, w⟩ := p
    simp only [Memory.wf, Bool.and_eq_true, decide_eq_true_eq, List.cons.injEq, Prod.mk.injEq]
    constructor
    · rintro ⟨hab, hwf⟩
      exact ⟨fun b' w' rest' ⟨⟨hb, _⟩, _⟩ => hb ▸ hab, hwf⟩
    · rintro ⟨h, hwf⟩
      exact ⟨h b w rest ⟨⟨rfl, rfl⟩, rfl⟩, hwf⟩

/-- The head of a written list is the old head or the written address. -/
theorem Memory.write_head {α : Type} (m : List (Nat × α)) (a : Nat) (v : α) {b : Nat} {w : α} {rest : List (Nat × α)}
    (h : Memory.write m a v = (b, w) :: rest) : b = a ∨ ∃ w' rest', m = (b, w') :: rest' := by
  cases m with
  | nil =>
    simp only [Memory.write, List.cons.injEq, Prod.mk.injEq] at h
    exact .inl h.1.1.symm
  | cons p rest' =>
    obtain ⟨c, w'⟩ := p
    simp only [Memory.write] at h
    split at h
    · simp only [List.cons.injEq, Prod.mk.injEq] at h
      exact .inl h.1.1.symm
    · split at h
      · simp only [List.cons.injEq, Prod.mk.injEq] at h
        exact .inl h.1.1.symm
      · simp only [List.cons.injEq, Prod.mk.injEq] at h
        exact .inr ⟨w', rest', by rw [h.1.1]⟩

/-- A write keeps the canonical form. -/
theorem Memory.wf_write {α : Type} (m : List (Nat × α)) (a : Nat) (v : α) (h : Memory.wf m = true) :
    Memory.wf (Memory.write m a v) = true := by
  induction m with
  | nil => rfl
  | cons p rest ih =>
    obtain ⟨b, w⟩ := p
    obtain ⟨hlt, hwf⟩ := (Memory.wf_cons b w rest).mp h
    simp only [Memory.write]
    split
    · next hab => exact (Memory.wf_cons a v _).mpr ⟨fun _ _ _ hc => by cases hc; exact hab, h⟩
    · split
      · next hab => exact (Memory.wf_cons a v rest).mpr ⟨hab ▸ hlt, hwf⟩
      · refine (Memory.wf_cons b w _).mpr ⟨fun c w' r hc => ?_, ih hwf⟩
        rcases Memory.write_head rest a v hc with rfl | ⟨w'', r'', hr⟩
        · omega
        · exact hlt c w'' r'' hr

/-- Every address of a canonical list lies above an address below its head. -/
theorem Memory.wf_erase_head {α : Type} (m : List (Nat × α)) (a lo : Nat) (h : Memory.wf m = true)
    (hlo : ∀ b w rest, m = (b, w) :: rest → lo < b) :
    ∀ b w rest, Memory.erase m a = (b, w) :: rest → lo < b := by
  induction m with
  | nil => intro b w rest hc; simp [Memory.erase] at hc
  | cons p rest ih =>
    obtain ⟨c, x⟩ := p
    obtain ⟨hlt, hwf⟩ := (Memory.wf_cons c x rest).mp h
    have hc := hlo c x rest rfl
    simp only [Memory.erase]
    split
    · exact ih hwf (fun b w r hr => Nat.lt_trans hc (hlt b w r hr))
    · intro b w r hr
      simp only [List.cons.injEq, Prod.mk.injEq] at hr
      omega

/-- Taking an address out keeps the canonical form. -/
theorem Memory.wf_erase {α : Type} (m : List (Nat × α)) (a : Nat) (h : Memory.wf m = true) :
    Memory.wf (Memory.erase m a) = true := by
  induction m with
  | nil => rfl
  | cons p rest ih =>
    obtain ⟨b, w⟩ := p
    obtain ⟨hlt, hwf⟩ := (Memory.wf_cons b w rest).mp h
    simp only [Memory.erase]
    split
    · exact ih hwf
    · exact (Memory.wf_cons b w _).mpr ⟨Memory.wf_erase_head rest a b hwf hlt, ih hwf⟩

theorem Memory.wf_writeBytes (bs : List Byte) (m : List Host.Cell) (a : Nat) (h : Memory.wf m = true) :
    Memory.wf (Memory.writeBytes m a bs) = true := by
  induction bs generalizing m a with
  | nil => exact h
  | cons b bs ih => exact ih _ _ (Memory.wf_write m a b h)

/-- Freeing a window keeps the canonical form. -/
theorem wf_freeSlots (buf : List (Nat × Half)) (slot sp draw n : Nat) (h : Memory.wf buf = true) :
    Memory.wf (freeSlots buf slot sp draw n) = true := by
  induction n with
  | zero => exact h
  | succ m ih => exact Memory.wf_write _ _ _ ih

/-- Freeing a window touches no slot outside it. -/
theorem read_freeSlots_outside (buf : List (Nat × Half)) (slot sp draw n c : Nat) (h : ∀ m < n, c ≠ slot + m * sp) :
    Memory.read (freeSlots buf slot sp draw n) c = Memory.read buf c := by
  induction n with
  | zero => rfl
  | succ m ih =>
    rw [freeSlots, Memory.read_write_other _ _ (h m (Nat.lt_succ_self m))]
    exact ih fun k hk => h k (Nat.lt_succ_of_lt hk)

/-- A write below another keeps out of it: what `writeBytes` leaves alone. -/
theorem Memory.read_writeBytes_outside (bs : List Byte) (m : List Host.Cell) (a c : Nat)
    (h : c < a ∨ a + bs.length ≤ c) : Memory.read (Memory.writeBytes m a bs) c = Memory.read m c := by
  induction bs generalizing m a with
  | nil => rfl
  | cons b bs ih =>
    rw [List.length_cons] at h
    rw [Memory.writeBytes, ih _ _ (by omega), Memory.read_write_other _ _ (by omega)]

/-- The bytes just written read back. -/
theorem Memory.bytesAt_writeBytes (bs : List Byte) (m : List Host.Cell) (a : Nat) :
    Memory.bytesAt (Memory.writeBytes m a bs) a bs.length = bs := by
  induction bs generalizing m a with
  | nil => rfl
  | cons b bs ih =>
    simp only [List.length_cons, Memory.bytesAt, Memory.writeBytes]
    rw [Memory.read_writeBytes_outside bs _ (a + 1) a (.inl (Nat.lt_succ_self a)), Memory.read_write_same, ih]
    rfl

/-- The bytes just written are there to be read. -/
theorem Memory.readable_writeBytes (bs : List Byte) (m : List Host.Cell) (a : Nat) :
    Memory.readable (Memory.writeBytes m a bs) a bs.length = true := by
  induction bs generalizing m a with
  | nil => rfl
  | cons b bs ih =>
    simp only [List.length_cons, Memory.readable, Memory.writeBytes, Bool.and_eq_true]
    rw [Memory.read_writeBytes_outside bs _ (a + 1) a (.inl (Nat.lt_succ_self a)), Memory.read_write_same]
    exact ⟨rfl, ih _ _⟩

/-- A range is readable when each of its bytes is. -/
theorem Memory.readable_iff (m : List Host.Cell) (a n : Nat) :
    Memory.readable m a n = true ↔ ∀ k < n, (Memory.read m (a + k)).isSome = true := by
  induction n generalizing a with
  | zero => simp [Memory.readable]
  | succ n ih =>
    rw [Memory.readable, Bool.and_eq_true, ih]
    constructor
    · rintro ⟨h0, h⟩ k hk
      cases k with
      | zero => exact h0
      | succ k =>
        have := h k (by omega)
        rwa [show a + 1 + k = a + (k + 1) by omega] at this
    · intro h
      refine ⟨h 0 (by omega), fun k hk => ?_⟩
      rw [show a + 1 + k = a + (k + 1) by omega]
      exact h (k + 1) (by omega)

@[simp] theorem Memory.length_bytesAt (m : List Host.Cell) (a n : Nat) : (Memory.bytesAt m a n).length = n := by
  induction n generalizing a with
  | zero => rfl
  | succ n ih => simp [Memory.bytesAt, ih]

end Sys2Proof.Machine
end

