-- ==== Sys2Proof/Laws/State.lean ====
section
/-! SUPPORT. What each named update of the state leaves unchanged: one lemma per field per update, so that no later proof
unfolds a record update. The fields an update does change have their lemmas at its end. -/

namespace Sys2Proof.Machine

/-! `State.logRead` -/

@[simp] theorem State.logRead_status (s : State) (a n : Nat) : (s.logRead a n).status = s.status := rfl
@[simp] theorem State.logRead_samplesWritten (s : State) (a n : Nat) : (s.logRead a n).samplesWritten = s.samplesWritten := rfl
@[simp] theorem State.logRead_faultInfo (s : State) (a n : Nat) : (s.logRead a n).faultInfo = s.faultInfo := rfl
@[simp] theorem State.logRead_streamBase (s : State) (a n : Nat) : (s.logRead a n).streamBase = s.streamBase := rfl
@[simp] theorem State.logRead_outSlot (s : State) (a n : Nat) : (s.logRead a n).outSlot = s.outSlot := rfl
@[simp] theorem State.logRead_channelSpacing (s : State) (a n : Nat) : (s.logRead a n).channelSpacing = s.channelSpacing := rfl
@[simp] theorem State.logRead_firstSample (s : State) (a n : Nat) : (s.logRead a n).firstSample = s.firstSample := rfl
@[simp] theorem State.logRead_samplesToDo (s : State) (a n : Nat) : (s.logRead a n).samplesToDo = s.samplesToDo := rfl
@[simp] theorem State.logRead_blockIndex (s : State) (a n : Nat) : (s.logRead a n).blockIndex = s.blockIndex := rfl
@[simp] theorem State.logRead_intraOffset (s : State) (a n : Nat) : (s.logRead a n).intraOffset = s.intraOffset := rfl
@[simp] theorem State.logRead_blockAddr (s : State) (a n : Nat) : (s.logRead a n).blockAddr = s.blockAddr := rfl
@[simp] theorem State.logRead_coefBits (s : State) (a n : Nat) : (s.logRead a n).coefBits = s.coefBits := rfl
@[simp] theorem State.logRead_shiftBits (s : State) (a n : Nat) : (s.logRead a n).shiftBits = s.shiftBits := rfl
@[simp] theorem State.logRead_hist1 (s : State) (a n : Nat) : (s.logRead a n).hist1 = s.hist1 := rfl
@[simp] theorem State.logRead_hist2 (s : State) (a n : Nat) : (s.logRead a n).hist2 = s.hist2 := rfl
@[simp] theorem State.logRead_coef1 (s : State) (a n : Nat) : (s.logRead a n).coef1 = s.coef1 := rfl
@[simp] theorem State.logRead_coef2 (s : State) (a n : Nat) : (s.logRead a n).coef2 = s.coef2 := rfl
@[simp] theorem State.logRead_shift (s : State) (a n : Nat) : (s.logRead a n).shift = s.shift := rfl
@[simp] theorem State.logRead_nibWord (s : State) (a n : Nat) : (s.logRead a n).nibWord = s.nibWord := rfl
@[simp] theorem State.logRead_pos (s : State) (a n : Nat) : (s.logRead a n).pos = s.pos := rfl
@[simp] theorem State.logRead_g (s : State) (a n : Nat) : (s.logRead a n).g = s.g := rfl
@[simp] theorem State.logRead_samplesDone (s : State) (a n : Nat) : (s.logRead a n).samplesDone = s.samplesDone := rfl
@[simp] theorem State.logRead_source (s : State) (a n : Nat) : (s.logRead a n).source = s.source := rfl
@[simp] theorem State.logRead_outBuf (s : State) (a n : Nat) : (s.logRead a n).outBuf = s.outBuf := rfl
@[simp] theorem State.logRead_stage (s : State) (a n : Nat) : (s.logRead a n).stage = s.stage := rfl
@[simp] theorem State.logRead_reply (s : State) (a n : Nat) : (s.logRead a n).reply = s.reply := rfl
@[simp] theorem State.logRead_tape (s : State) (a n : Nat) : (s.logRead a n).tape = s.tape := rfl
@[simp] theorem State.logRead_widths (s : State) (a n : Nat) : (s.logRead a n).widths = s.widths := rfl
@[simp] theorem State.logRead_draws (s : State) (a n : Nat) : (s.logRead a n).draws = s.draws := rfl

@[simp] theorem State.logRead_readLog (s : State) (a n : Nat) : (s.logRead a n).readLog = s.readLog ++ [(a, n)] := rfl

/-! `State.outWrite` -/

@[simp] theorem State.outWrite_status (s : State) (k : Nat) (v : Half) : (s.outWrite k v).status = s.status := rfl
@[simp] theorem State.outWrite_samplesWritten (s : State) (k : Nat) (v : Half) : (s.outWrite k v).samplesWritten = s.samplesWritten := rfl
@[simp] theorem State.outWrite_faultInfo (s : State) (k : Nat) (v : Half) : (s.outWrite k v).faultInfo = s.faultInfo := rfl
@[simp] theorem State.outWrite_streamBase (s : State) (k : Nat) (v : Half) : (s.outWrite k v).streamBase = s.streamBase := rfl
@[simp] theorem State.outWrite_outSlot (s : State) (k : Nat) (v : Half) : (s.outWrite k v).outSlot = s.outSlot := rfl
@[simp] theorem State.outWrite_channelSpacing (s : State) (k : Nat) (v : Half) : (s.outWrite k v).channelSpacing = s.channelSpacing := rfl
@[simp] theorem State.outWrite_firstSample (s : State) (k : Nat) (v : Half) : (s.outWrite k v).firstSample = s.firstSample := rfl
@[simp] theorem State.outWrite_samplesToDo (s : State) (k : Nat) (v : Half) : (s.outWrite k v).samplesToDo = s.samplesToDo := rfl
@[simp] theorem State.outWrite_blockIndex (s : State) (k : Nat) (v : Half) : (s.outWrite k v).blockIndex = s.blockIndex := rfl
@[simp] theorem State.outWrite_intraOffset (s : State) (k : Nat) (v : Half) : (s.outWrite k v).intraOffset = s.intraOffset := rfl
@[simp] theorem State.outWrite_blockAddr (s : State) (k : Nat) (v : Half) : (s.outWrite k v).blockAddr = s.blockAddr := rfl
@[simp] theorem State.outWrite_coefBits (s : State) (k : Nat) (v : Half) : (s.outWrite k v).coefBits = s.coefBits := rfl
@[simp] theorem State.outWrite_shiftBits (s : State) (k : Nat) (v : Half) : (s.outWrite k v).shiftBits = s.shiftBits := rfl
@[simp] theorem State.outWrite_hist1 (s : State) (k : Nat) (v : Half) : (s.outWrite k v).hist1 = s.hist1 := rfl
@[simp] theorem State.outWrite_hist2 (s : State) (k : Nat) (v : Half) : (s.outWrite k v).hist2 = s.hist2 := rfl
@[simp] theorem State.outWrite_coef1 (s : State) (k : Nat) (v : Half) : (s.outWrite k v).coef1 = s.coef1 := rfl
@[simp] theorem State.outWrite_coef2 (s : State) (k : Nat) (v : Half) : (s.outWrite k v).coef2 = s.coef2 := rfl
@[simp] theorem State.outWrite_shift (s : State) (k : Nat) (v : Half) : (s.outWrite k v).shift = s.shift := rfl
@[simp] theorem State.outWrite_nibWord (s : State) (k : Nat) (v : Half) : (s.outWrite k v).nibWord = s.nibWord := rfl
@[simp] theorem State.outWrite_pos (s : State) (k : Nat) (v : Half) : (s.outWrite k v).pos = s.pos := rfl
@[simp] theorem State.outWrite_g (s : State) (k : Nat) (v : Half) : (s.outWrite k v).g = s.g := rfl
@[simp] theorem State.outWrite_samplesDone (s : State) (k : Nat) (v : Half) : (s.outWrite k v).samplesDone = s.samplesDone := rfl
@[simp] theorem State.outWrite_source (s : State) (k : Nat) (v : Half) : (s.outWrite k v).source = s.source := rfl
@[simp] theorem State.outWrite_readLog (s : State) (k : Nat) (v : Half) : (s.outWrite k v).readLog = s.readLog := rfl
@[simp] theorem State.outWrite_stage (s : State) (k : Nat) (v : Half) : (s.outWrite k v).stage = s.stage := rfl
@[simp] theorem State.outWrite_reply (s : State) (k : Nat) (v : Half) : (s.outWrite k v).reply = s.reply := rfl
@[simp] theorem State.outWrite_tape (s : State) (k : Nat) (v : Half) : (s.outWrite k v).tape = s.tape := rfl
@[simp] theorem State.outWrite_widths (s : State) (k : Nat) (v : Half) : (s.outWrite k v).widths = s.widths := rfl
@[simp] theorem State.outWrite_draws (s : State) (k : Nat) (v : Half) : (s.outWrite k v).draws = s.draws := rfl

@[simp] theorem State.outWrite_outBuf (s : State) (k : Nat) (v : Half) :
    (s.outWrite k v).outBuf = Memory.write s.outBuf k v := rfl

/-! `State.freshDatapath` -/

@[simp] theorem State.freshDatapath_status (s : State) : (s.freshDatapath).status = s.status := rfl
@[simp] theorem State.freshDatapath_samplesWritten (s : State) : (s.freshDatapath).samplesWritten = s.samplesWritten := rfl
@[simp] theorem State.freshDatapath_faultInfo (s : State) : (s.freshDatapath).faultInfo = s.faultInfo := rfl
@[simp] theorem State.freshDatapath_streamBase (s : State) : (s.freshDatapath).streamBase = s.streamBase := rfl
@[simp] theorem State.freshDatapath_outSlot (s : State) : (s.freshDatapath).outSlot = s.outSlot := rfl
@[simp] theorem State.freshDatapath_channelSpacing (s : State) : (s.freshDatapath).channelSpacing = s.channelSpacing := rfl
@[simp] theorem State.freshDatapath_firstSample (s : State) : (s.freshDatapath).firstSample = s.firstSample := rfl
@[simp] theorem State.freshDatapath_samplesToDo (s : State) : (s.freshDatapath).samplesToDo = s.samplesToDo := rfl
@[simp] theorem State.freshDatapath_blockIndex (s : State) : (s.freshDatapath).blockIndex = s.blockIndex := rfl
@[simp] theorem State.freshDatapath_intraOffset (s : State) : (s.freshDatapath).intraOffset = s.intraOffset := rfl
@[simp] theorem State.freshDatapath_blockAddr (s : State) : (s.freshDatapath).blockAddr = s.blockAddr := rfl
@[simp] theorem State.freshDatapath_pos (s : State) : (s.freshDatapath).pos = s.pos := rfl
@[simp] theorem State.freshDatapath_g (s : State) : (s.freshDatapath).g = s.g := rfl
@[simp] theorem State.freshDatapath_samplesDone (s : State) : (s.freshDatapath).samplesDone = s.samplesDone := rfl
@[simp] theorem State.freshDatapath_source (s : State) : (s.freshDatapath).source = s.source := rfl
@[simp] theorem State.freshDatapath_outBuf (s : State) : (s.freshDatapath).outBuf = s.outBuf := rfl
@[simp] theorem State.freshDatapath_readLog (s : State) : (s.freshDatapath).readLog = s.readLog := rfl
@[simp] theorem State.freshDatapath_stage (s : State) : (s.freshDatapath).stage = s.stage := rfl
@[simp] theorem State.freshDatapath_reply (s : State) : (s.freshDatapath).reply = s.reply := rfl
@[simp] theorem State.freshDatapath_tape (s : State) : (s.freshDatapath).tape = s.tape := rfl
@[simp] theorem State.freshDatapath_widths (s : State) : (s.freshDatapath).widths = s.widths := rfl

/-! `State.freshResults` -/

@[simp] theorem State.freshResults_status (s : State) : (s.freshResults).status = s.status := rfl
@[simp] theorem State.freshResults_streamBase (s : State) : (s.freshResults).streamBase = s.streamBase := rfl
@[simp] theorem State.freshResults_outSlot (s : State) : (s.freshResults).outSlot = s.outSlot := rfl
@[simp] theorem State.freshResults_channelSpacing (s : State) : (s.freshResults).channelSpacing = s.channelSpacing := rfl
@[simp] theorem State.freshResults_firstSample (s : State) : (s.freshResults).firstSample = s.firstSample := rfl
@[simp] theorem State.freshResults_samplesToDo (s : State) : (s.freshResults).samplesToDo = s.samplesToDo := rfl
@[simp] theorem State.freshResults_blockIndex (s : State) : (s.freshResults).blockIndex = s.blockIndex := rfl
@[simp] theorem State.freshResults_intraOffset (s : State) : (s.freshResults).intraOffset = s.intraOffset := rfl
@[simp] theorem State.freshResults_blockAddr (s : State) : (s.freshResults).blockAddr = s.blockAddr := rfl
@[simp] theorem State.freshResults_coefBits (s : State) : (s.freshResults).coefBits = s.coefBits := rfl
@[simp] theorem State.freshResults_shiftBits (s : State) : (s.freshResults).shiftBits = s.shiftBits := rfl
@[simp] theorem State.freshResults_hist1 (s : State) : (s.freshResults).hist1 = s.hist1 := rfl
@[simp] theorem State.freshResults_hist2 (s : State) : (s.freshResults).hist2 = s.hist2 := rfl
@[simp] theorem State.freshResults_coef1 (s : State) : (s.freshResults).coef1 = s.coef1 := rfl
@[simp] theorem State.freshResults_coef2 (s : State) : (s.freshResults).coef2 = s.coef2 := rfl
@[simp] theorem State.freshResults_shift (s : State) : (s.freshResults).shift = s.shift := rfl
@[simp] theorem State.freshResults_nibWord (s : State) : (s.freshResults).nibWord = s.nibWord := rfl
@[simp] theorem State.freshResults_pos (s : State) : (s.freshResults).pos = s.pos := rfl
@[simp] theorem State.freshResults_g (s : State) : (s.freshResults).g = s.g := rfl
@[simp] theorem State.freshResults_samplesDone (s : State) : (s.freshResults).samplesDone = s.samplesDone := rfl
@[simp] theorem State.freshResults_source (s : State) : (s.freshResults).source = s.source := rfl
@[simp] theorem State.freshResults_outBuf (s : State) : (s.freshResults).outBuf = s.outBuf := rfl
@[simp] theorem State.freshResults_readLog (s : State) : (s.freshResults).readLog = s.readLog := rfl
@[simp] theorem State.freshResults_stage (s : State) : (s.freshResults).stage = s.stage := rfl
@[simp] theorem State.freshResults_reply (s : State) : (s.freshResults).reply = s.reply := rfl
@[simp] theorem State.freshResults_tape (s : State) : (s.freshResults).tape = s.tape := rfl
@[simp] theorem State.freshResults_widths (s : State) : (s.freshResults).widths = s.widths := rfl

/-! `State.freeWindow` -/

@[simp] theorem State.freeWindow_status (s : State) : (s.freeWindow).status = s.status := rfl
@[simp] theorem State.freeWindow_samplesWritten (s : State) : (s.freeWindow).samplesWritten = s.samplesWritten := rfl
@[simp] theorem State.freeWindow_faultInfo (s : State) : (s.freeWindow).faultInfo = s.faultInfo := rfl
@[simp] theorem State.freeWindow_streamBase (s : State) : (s.freeWindow).streamBase = s.streamBase := rfl
@[simp] theorem State.freeWindow_outSlot (s : State) : (s.freeWindow).outSlot = s.outSlot := rfl
@[simp] theorem State.freeWindow_channelSpacing (s : State) : (s.freeWindow).channelSpacing = s.channelSpacing := rfl
@[simp] theorem State.freeWindow_firstSample (s : State) : (s.freeWindow).firstSample = s.firstSample := rfl
@[simp] theorem State.freeWindow_samplesToDo (s : State) : (s.freeWindow).samplesToDo = s.samplesToDo := rfl
@[simp] theorem State.freeWindow_blockIndex (s : State) : (s.freeWindow).blockIndex = s.blockIndex := rfl
@[simp] theorem State.freeWindow_intraOffset (s : State) : (s.freeWindow).intraOffset = s.intraOffset := rfl
@[simp] theorem State.freeWindow_blockAddr (s : State) : (s.freeWindow).blockAddr = s.blockAddr := rfl
@[simp] theorem State.freeWindow_coefBits (s : State) : (s.freeWindow).coefBits = s.coefBits := rfl
@[simp] theorem State.freeWindow_shiftBits (s : State) : (s.freeWindow).shiftBits = s.shiftBits := rfl
@[simp] theorem State.freeWindow_hist1 (s : State) : (s.freeWindow).hist1 = s.hist1 := rfl
@[simp] theorem State.freeWindow_hist2 (s : State) : (s.freeWindow).hist2 = s.hist2 := rfl
@[simp] theorem State.freeWindow_coef1 (s : State) : (s.freeWindow).coef1 = s.coef1 := rfl
@[simp] theorem State.freeWindow_coef2 (s : State) : (s.freeWindow).coef2 = s.coef2 := rfl
@[simp] theorem State.freeWindow_shift (s : State) : (s.freeWindow).shift = s.shift := rfl
@[simp] theorem State.freeWindow_nibWord (s : State) : (s.freeWindow).nibWord = s.nibWord := rfl
@[simp] theorem State.freeWindow_pos (s : State) : (s.freeWindow).pos = s.pos := rfl
@[simp] theorem State.freeWindow_g (s : State) : (s.freeWindow).g = s.g := rfl
@[simp] theorem State.freeWindow_samplesDone (s : State) : (s.freeWindow).samplesDone = s.samplesDone := rfl
@[simp] theorem State.freeWindow_source (s : State) : (s.freeWindow).source = s.source := rfl
@[simp] theorem State.freeWindow_readLog (s : State) : (s.freeWindow).readLog = s.readLog := rfl
@[simp] theorem State.freeWindow_stage (s : State) : (s.freeWindow).stage = s.stage := rfl
@[simp] theorem State.freeWindow_reply (s : State) : (s.freeWindow).reply = s.reply := rfl
@[simp] theorem State.freeWindow_tape (s : State) : (s.freeWindow).tape = s.tape := rfl
@[simp] theorem State.freeWindow_widths (s : State) : (s.freeWindow).widths = s.widths := rfl

@[simp] theorem State.freeWindow_outBuf (s : State) :
    s.freeWindow.outBuf = freeSlots s.outBuf s.outSlot s.channelSpacing s.draws s.windowSize := rfl

/-! `State.takeReadFault` -/

@[simp] theorem State.takeReadFault_samplesWritten (s : State) (a n : Nat) : (s.takeReadFault a n).samplesWritten = s.samplesWritten := rfl
@[simp] theorem State.takeReadFault_streamBase (s : State) (a n : Nat) : (s.takeReadFault a n).streamBase = s.streamBase := rfl
@[simp] theorem State.takeReadFault_outSlot (s : State) (a n : Nat) : (s.takeReadFault a n).outSlot = s.outSlot := rfl
@[simp] theorem State.takeReadFault_channelSpacing (s : State) (a n : Nat) : (s.takeReadFault a n).channelSpacing = s.channelSpacing := rfl
@[simp] theorem State.takeReadFault_firstSample (s : State) (a n : Nat) : (s.takeReadFault a n).firstSample = s.firstSample := rfl
@[simp] theorem State.takeReadFault_samplesToDo (s : State) (a n : Nat) : (s.takeReadFault a n).samplesToDo = s.samplesToDo := rfl
@[simp] theorem State.takeReadFault_blockIndex (s : State) (a n : Nat) : (s.takeReadFault a n).blockIndex = s.blockIndex := rfl
@[simp] theorem State.takeReadFault_intraOffset (s : State) (a n : Nat) : (s.takeReadFault a n).intraOffset = s.intraOffset := rfl
@[simp] theorem State.takeReadFault_blockAddr (s : State) (a n : Nat) : (s.takeReadFault a n).blockAddr = s.blockAddr := rfl
@[simp] theorem State.takeReadFault_pos (s : State) (a n : Nat) : (s.takeReadFault a n).pos = s.pos := rfl
@[simp] theorem State.takeReadFault_g (s : State) (a n : Nat) : (s.takeReadFault a n).g = s.g := rfl
@[simp] theorem State.takeReadFault_samplesDone (s : State) (a n : Nat) : (s.takeReadFault a n).samplesDone = s.samplesDone := rfl
@[simp] theorem State.takeReadFault_source (s : State) (a n : Nat) : (s.takeReadFault a n).source = s.source := rfl
@[simp] theorem State.takeReadFault_readLog (s : State) (a n : Nat) : (s.takeReadFault a n).readLog = s.readLog := rfl
@[simp] theorem State.takeReadFault_stage (s : State) (a n : Nat) : (s.takeReadFault a n).stage = s.stage := rfl
@[simp] theorem State.takeReadFault_reply (s : State) (a n : Nat) : (s.takeReadFault a n).reply = s.reply := rfl
@[simp] theorem State.takeReadFault_tape (s : State) (a n : Nat) : (s.takeReadFault a n).tape = s.tape := rfl
@[simp] theorem State.takeReadFault_widths (s : State) (a n : Nat) : (s.takeReadFault a n).widths = s.widths := rfl

@[simp] theorem State.takeReadFault_status (s : State) (a n : Nat) : (s.takeReadFault a n).status = .fault := rfl
@[simp] theorem State.takeReadFault_outBuf (s : State) (a n : Nat) :
    (s.takeReadFault a n).outBuf = freeSlots s.outBuf s.outSlot s.channelSpacing s.draws s.windowSize := rfl
@[simp] theorem State.takeReadFault_faultInfo (s : State) (a n : Nat) :
    (s.takeReadFault a n).faultInfo = ⟨Config.sourceError s.source a n, a, n⟩ := rfl
@[simp] theorem State.takeReadFault_draws (s : State) (a n : Nat) :
    (s.takeReadFault a n).draws = s.draws + s.windowSize + 5 := rfl

/-! `State.startCall` -/

@[simp] theorem State.startCall_source (s : State) (c : Command) : (s.startCall c).source = s.source := rfl
@[simp] theorem State.startCall_outBuf (s : State) (c : Command) : (s.startCall c).outBuf = s.outBuf := rfl
@[simp] theorem State.startCall_readLog (s : State) (c : Command) : (s.startCall c).readLog = s.readLog := rfl
@[simp] theorem State.startCall_tape (s : State) (c : Command) : (s.startCall c).tape = s.tape := rfl
@[simp] theorem State.startCall_widths (s : State) (c : Command) : (s.startCall c).widths = s.widths := rfl

@[simp] theorem State.startCall_status (s : State) (c : Command) : (s.startCall c).status = .busy := rfl
@[simp] theorem State.startCall_streamBase (s : State) (c : Command) : (s.startCall c).streamBase = c.base := rfl
@[simp] theorem State.startCall_outSlot (s : State) (c : Command) : (s.startCall c).outSlot = c.out := rfl
@[simp] theorem State.startCall_channelSpacing (s : State) (c : Command) : (s.startCall c).channelSpacing = c.spacing := rfl
@[simp] theorem State.startCall_firstSample (s : State) (c : Command) : (s.startCall c).firstSample = c.first := rfl
@[simp] theorem State.startCall_samplesToDo (s : State) (c : Command) : (s.startCall c).samplesToDo = c.count := rfl
@[simp] theorem State.startCall_blockIndex (s : State) (c : Command) : (s.startCall c).blockIndex = locateIndex c.first := rfl
@[simp] theorem State.startCall_intraOffset (s : State) (c : Command) : (s.startCall c).intraOffset = locateOffset c.first := rfl
@[simp] theorem State.startCall_blockAddr (s : State) (c : Command) : (s.startCall c).blockAddr = locateAddr c.base c.first := rfl
@[simp] theorem State.startCall_pos (s : State) (c : Command) : (s.startCall c).pos = ⟨0, 0, 0⟩ := rfl
@[simp] theorem State.startCall_g (s : State) (c : Command) : (s.startCall c).g = 0 := rfl
@[simp] theorem State.startCall_samplesDone (s : State) (c : Command) : (s.startCall c).samplesDone = 0 := rfl
@[simp] theorem State.startCall_stage (s : State) (c : Command) : (s.startCall c).stage = .header := rfl
@[simp] theorem State.startCall_reply (s : State) (c : Command) : (s.startCall c).reply = .accepted := rfl

/-! `State.refuse` -/

@[simp] theorem State.refuse_status (s : State) (r : RefuseReason) : (s.refuse r).status = s.status := rfl
@[simp] theorem State.refuse_samplesWritten (s : State) (r : RefuseReason) : (s.refuse r).samplesWritten = s.samplesWritten := rfl
@[simp] theorem State.refuse_faultInfo (s : State) (r : RefuseReason) : (s.refuse r).faultInfo = s.faultInfo := rfl
@[simp] theorem State.refuse_streamBase (s : State) (r : RefuseReason) : (s.refuse r).streamBase = s.streamBase := rfl
@[simp] theorem State.refuse_outSlot (s : State) (r : RefuseReason) : (s.refuse r).outSlot = s.outSlot := rfl
@[simp] theorem State.refuse_channelSpacing (s : State) (r : RefuseReason) : (s.refuse r).channelSpacing = s.channelSpacing := rfl
@[simp] theorem State.refuse_firstSample (s : State) (r : RefuseReason) : (s.refuse r).firstSample = s.firstSample := rfl
@[simp] theorem State.refuse_samplesToDo (s : State) (r : RefuseReason) : (s.refuse r).samplesToDo = s.samplesToDo := rfl
@[simp] theorem State.refuse_blockIndex (s : State) (r : RefuseReason) : (s.refuse r).blockIndex = s.blockIndex := rfl
@[simp] theorem State.refuse_intraOffset (s : State) (r : RefuseReason) : (s.refuse r).intraOffset = s.intraOffset := rfl
@[simp] theorem State.refuse_blockAddr (s : State) (r : RefuseReason) : (s.refuse r).blockAddr = s.blockAddr := rfl
@[simp] theorem State.refuse_coefBits (s : State) (r : RefuseReason) : (s.refuse r).coefBits = s.coefBits := rfl
@[simp] theorem State.refuse_shiftBits (s : State) (r : RefuseReason) : (s.refuse r).shiftBits = s.shiftBits := rfl
@[simp] theorem State.refuse_hist1 (s : State) (r : RefuseReason) : (s.refuse r).hist1 = s.hist1 := rfl
@[simp] theorem State.refuse_hist2 (s : State) (r : RefuseReason) : (s.refuse r).hist2 = s.hist2 := rfl
@[simp] theorem State.refuse_coef1 (s : State) (r : RefuseReason) : (s.refuse r).coef1 = s.coef1 := rfl
@[simp] theorem State.refuse_coef2 (s : State) (r : RefuseReason) : (s.refuse r).coef2 = s.coef2 := rfl
@[simp] theorem State.refuse_shift (s : State) (r : RefuseReason) : (s.refuse r).shift = s.shift := rfl
@[simp] theorem State.refuse_nibWord (s : State) (r : RefuseReason) : (s.refuse r).nibWord = s.nibWord := rfl
@[simp] theorem State.refuse_pos (s : State) (r : RefuseReason) : (s.refuse r).pos = s.pos := rfl
@[simp] theorem State.refuse_g (s : State) (r : RefuseReason) : (s.refuse r).g = s.g := rfl
@[simp] theorem State.refuse_samplesDone (s : State) (r : RefuseReason) : (s.refuse r).samplesDone = s.samplesDone := rfl
@[simp] theorem State.refuse_source (s : State) (r : RefuseReason) : (s.refuse r).source = s.source := rfl
@[simp] theorem State.refuse_outBuf (s : State) (r : RefuseReason) : (s.refuse r).outBuf = s.outBuf := rfl
@[simp] theorem State.refuse_readLog (s : State) (r : RefuseReason) : (s.refuse r).readLog = s.readLog := rfl
@[simp] theorem State.refuse_stage (s : State) (r : RefuseReason) : (s.refuse r).stage = s.stage := rfl
@[simp] theorem State.refuse_tape (s : State) (r : RefuseReason) : (s.refuse r).tape = s.tape := rfl
@[simp] theorem State.refuse_widths (s : State) (r : RefuseReason) : (s.refuse r).widths = s.widths := rfl
@[simp] theorem State.refuse_draws (s : State) (r : RefuseReason) : (s.refuse r).draws = s.draws := rfl

/-! `State.finish` -/

@[simp] theorem State.finish_faultInfo (s : State) : (s.finish).faultInfo = s.faultInfo := rfl
@[simp] theorem State.finish_streamBase (s : State) : (s.finish).streamBase = s.streamBase := rfl
@[simp] theorem State.finish_outSlot (s : State) : (s.finish).outSlot = s.outSlot := rfl
@[simp] theorem State.finish_channelSpacing (s : State) : (s.finish).channelSpacing = s.channelSpacing := rfl
@[simp] theorem State.finish_firstSample (s : State) : (s.finish).firstSample = s.firstSample := rfl
@[simp] theorem State.finish_samplesToDo (s : State) : (s.finish).samplesToDo = s.samplesToDo := rfl
@[simp] theorem State.finish_blockIndex (s : State) : (s.finish).blockIndex = s.blockIndex := rfl
@[simp] theorem State.finish_intraOffset (s : State) : (s.finish).intraOffset = s.intraOffset := rfl
@[simp] theorem State.finish_blockAddr (s : State) : (s.finish).blockAddr = s.blockAddr := rfl
@[simp] theorem State.finish_pos (s : State) : (s.finish).pos = s.pos := rfl
@[simp] theorem State.finish_g (s : State) : (s.finish).g = s.g := rfl
@[simp] theorem State.finish_samplesDone (s : State) : (s.finish).samplesDone = s.samplesDone := rfl
@[simp] theorem State.finish_source (s : State) : (s.finish).source = s.source := rfl
@[simp] theorem State.finish_outBuf (s : State) : (s.finish).outBuf = s.outBuf := rfl
@[simp] theorem State.finish_readLog (s : State) : (s.finish).readLog = s.readLog := rfl
@[simp] theorem State.finish_stage (s : State) : (s.finish).stage = s.stage := rfl
@[simp] theorem State.finish_reply (s : State) : (s.finish).reply = s.reply := rfl
@[simp] theorem State.finish_tape (s : State) : (s.finish).tape = s.tape := rfl
@[simp] theorem State.finish_widths (s : State) : (s.finish).widths = s.widths := rfl

@[simp] theorem State.finish_status (s : State) : s.finish.status = .done := rfl
@[simp] theorem State.finish_samplesWritten (s : State) : s.finish.samplesWritten = s.samplesDone := rfl

/-! `State.powerOn` -/

@[simp] theorem State.powerOn_source (s : State) : (s.powerOn).source = s.source := by unfold State.powerOn; split <;> rfl
@[simp] theorem State.powerOn_readLog (s : State) : (s.powerOn).readLog = s.readLog := by unfold State.powerOn; split <;> rfl
@[simp] theorem State.powerOn_tape (s : State) : (s.powerOn).tape = s.tape := by unfold State.powerOn; split <;> rfl
@[simp] theorem State.powerOn_widths (s : State) : (s.powerOn).widths = s.widths := by unfold State.powerOn; split <;> rfl

@[simp] theorem State.powerOn_status (s : State) : s.powerOn.status = .idle := rfl

/-! `beginSubframe` -/

@[simp] theorem beginSubframe_status (ci sf : Nibble) (s : State) : (beginSubframe ci sf s).status = s.status := rfl
@[simp] theorem beginSubframe_samplesWritten (ci sf : Nibble) (s : State) : (beginSubframe ci sf s).samplesWritten = s.samplesWritten := rfl
@[simp] theorem beginSubframe_faultInfo (ci sf : Nibble) (s : State) : (beginSubframe ci sf s).faultInfo = s.faultInfo := rfl
@[simp] theorem beginSubframe_streamBase (ci sf : Nibble) (s : State) : (beginSubframe ci sf s).streamBase = s.streamBase := rfl
@[simp] theorem beginSubframe_outSlot (ci sf : Nibble) (s : State) : (beginSubframe ci sf s).outSlot = s.outSlot := rfl
@[simp] theorem beginSubframe_channelSpacing (ci sf : Nibble) (s : State) : (beginSubframe ci sf s).channelSpacing = s.channelSpacing := rfl
@[simp] theorem beginSubframe_firstSample (ci sf : Nibble) (s : State) : (beginSubframe ci sf s).firstSample = s.firstSample := rfl
@[simp] theorem beginSubframe_samplesToDo (ci sf : Nibble) (s : State) : (beginSubframe ci sf s).samplesToDo = s.samplesToDo := rfl
@[simp] theorem beginSubframe_blockIndex (ci sf : Nibble) (s : State) : (beginSubframe ci sf s).blockIndex = s.blockIndex := rfl
@[simp] theorem beginSubframe_intraOffset (ci sf : Nibble) (s : State) : (beginSubframe ci sf s).intraOffset = s.intraOffset := rfl
@[simp] theorem beginSubframe_blockAddr (ci sf : Nibble) (s : State) : (beginSubframe ci sf s).blockAddr = s.blockAddr := rfl
@[simp] theorem beginSubframe_coefBits (ci sf : Nibble) (s : State) : (beginSubframe ci sf s).coefBits = s.coefBits := rfl
@[simp] theorem beginSubframe_shiftBits (ci sf : Nibble) (s : State) : (beginSubframe ci sf s).shiftBits = s.shiftBits := rfl
@[simp] theorem beginSubframe_hist1 (ci sf : Nibble) (s : State) : (beginSubframe ci sf s).hist1 = s.hist1 := rfl
@[simp] theorem beginSubframe_hist2 (ci sf : Nibble) (s : State) : (beginSubframe ci sf s).hist2 = s.hist2 := rfl
@[simp] theorem beginSubframe_nibWord (ci sf : Nibble) (s : State) : (beginSubframe ci sf s).nibWord = s.nibWord := rfl
@[simp] theorem beginSubframe_pos (ci sf : Nibble) (s : State) : (beginSubframe ci sf s).pos = s.pos := rfl
@[simp] theorem beginSubframe_g (ci sf : Nibble) (s : State) : (beginSubframe ci sf s).g = s.g := rfl
@[simp] theorem beginSubframe_samplesDone (ci sf : Nibble) (s : State) : (beginSubframe ci sf s).samplesDone = s.samplesDone := rfl
@[simp] theorem beginSubframe_source (ci sf : Nibble) (s : State) : (beginSubframe ci sf s).source = s.source := rfl
@[simp] theorem beginSubframe_outBuf (ci sf : Nibble) (s : State) : (beginSubframe ci sf s).outBuf = s.outBuf := rfl
@[simp] theorem beginSubframe_readLog (ci sf : Nibble) (s : State) : (beginSubframe ci sf s).readLog = s.readLog := rfl
@[simp] theorem beginSubframe_reply (ci sf : Nibble) (s : State) : (beginSubframe ci sf s).reply = s.reply := rfl
@[simp] theorem beginSubframe_tape (ci sf : Nibble) (s : State) : (beginSubframe ci sf s).tape = s.tape := rfl
@[simp] theorem beginSubframe_widths (ci sf : Nibble) (s : State) : (beginSubframe ci sf s).widths = s.widths := rfl
@[simp] theorem beginSubframe_draws (ci sf : Nibble) (s : State) : (beginSubframe ci sf s).draws = s.draws := rfl
@[simp] theorem beginSubframe_coef1 (ci sf : Nibble) (s : State) : (beginSubframe ci sf s).coef1 = (coefPair ci).1 := rfl
@[simp] theorem beginSubframe_coef2 (ci sf : Nibble) (s : State) : (beginSubframe ci sf s).coef2 = (coefPair ci).2 := rfl
@[simp] theorem beginSubframe_shift (ci sf : Nibble) (s : State) : (beginSubframe ci sf s).shift = effectiveShift sf := rfl
@[simp] theorem beginSubframe_stage (ci sf : Nibble) (s : State) : (beginSubframe ci sf s).stage = .fetch := rfl

/-! `State.seqNext` -/

@[simp] theorem State.seqNext_status (s : State) : (s.seqNext).status = s.status := rfl
@[simp] theorem State.seqNext_samplesWritten (s : State) : (s.seqNext).samplesWritten = s.samplesWritten := rfl
@[simp] theorem State.seqNext_faultInfo (s : State) : (s.seqNext).faultInfo = s.faultInfo := rfl
@[simp] theorem State.seqNext_streamBase (s : State) : (s.seqNext).streamBase = s.streamBase := rfl
@[simp] theorem State.seqNext_outSlot (s : State) : (s.seqNext).outSlot = s.outSlot := rfl
@[simp] theorem State.seqNext_channelSpacing (s : State) : (s.seqNext).channelSpacing = s.channelSpacing := rfl
@[simp] theorem State.seqNext_firstSample (s : State) : (s.seqNext).firstSample = s.firstSample := rfl
@[simp] theorem State.seqNext_samplesToDo (s : State) : (s.seqNext).samplesToDo = s.samplesToDo := rfl
@[simp] theorem State.seqNext_blockIndex (s : State) : (s.seqNext).blockIndex = s.blockIndex := rfl
@[simp] theorem State.seqNext_intraOffset (s : State) : (s.seqNext).intraOffset = s.intraOffset := rfl
@[simp] theorem State.seqNext_blockAddr (s : State) : (s.seqNext).blockAddr = s.blockAddr := rfl
@[simp] theorem State.seqNext_coefBits (s : State) : (s.seqNext).coefBits = s.coefBits := rfl
@[simp] theorem State.seqNext_shiftBits (s : State) : (s.seqNext).shiftBits = s.shiftBits := rfl
@[simp] theorem State.seqNext_hist1 (s : State) : (s.seqNext).hist1 = s.hist1 := rfl
@[simp] theorem State.seqNext_hist2 (s : State) : (s.seqNext).hist2 = s.hist2 := rfl
@[simp] theorem State.seqNext_coef1 (s : State) : (s.seqNext).coef1 = s.coef1 := rfl
@[simp] theorem State.seqNext_coef2 (s : State) : (s.seqNext).coef2 = s.coef2 := rfl
@[simp] theorem State.seqNext_shift (s : State) : (s.seqNext).shift = s.shift := rfl
@[simp] theorem State.seqNext_nibWord (s : State) : (s.seqNext).nibWord = s.nibWord := rfl
@[simp] theorem State.seqNext_g (s : State) : (s.seqNext).g = s.g := rfl
@[simp] theorem State.seqNext_samplesDone (s : State) : (s.seqNext).samplesDone = s.samplesDone := rfl
@[simp] theorem State.seqNext_source (s : State) : (s.seqNext).source = s.source := rfl
@[simp] theorem State.seqNext_outBuf (s : State) : (s.seqNext).outBuf = s.outBuf := rfl
@[simp] theorem State.seqNext_readLog (s : State) : (s.seqNext).readLog = s.readLog := rfl
@[simp] theorem State.seqNext_reply (s : State) : (s.seqNext).reply = s.reply := rfl
@[simp] theorem State.seqNext_tape (s : State) : (s.seqNext).tape = s.tape := rfl
@[simp] theorem State.seqNext_widths (s : State) : (s.seqNext).widths = s.widths := rfl
@[simp] theorem State.seqNext_draws (s : State) : (s.seqNext).draws = s.draws := rfl
@[simp] theorem State.seqNext_pos (s : State) : s.seqNext.pos = s.pos.next := rfl
@[simp] theorem State.seqNext_stage (s : State) : s.seqNext.stage = s.pos.nextStage := rfl

/-! `State.emit` -/

@[simp] theorem State.emit_status (s : State) (v : Int) : (s.emit v).status = s.status := by unfold State.emit; split <;> rfl
@[simp] theorem State.emit_samplesWritten (s : State) (v : Int) : (s.emit v).samplesWritten = s.samplesWritten := by unfold State.emit; split <;> rfl
@[simp] theorem State.emit_faultInfo (s : State) (v : Int) : (s.emit v).faultInfo = s.faultInfo := by unfold State.emit; split <;> rfl
@[simp] theorem State.emit_streamBase (s : State) (v : Int) : (s.emit v).streamBase = s.streamBase := by unfold State.emit; split <;> rfl
@[simp] theorem State.emit_outSlot (s : State) (v : Int) : (s.emit v).outSlot = s.outSlot := by unfold State.emit; split <;> rfl
@[simp] theorem State.emit_channelSpacing (s : State) (v : Int) : (s.emit v).channelSpacing = s.channelSpacing := by unfold State.emit; split <;> rfl
@[simp] theorem State.emit_firstSample (s : State) (v : Int) : (s.emit v).firstSample = s.firstSample := by unfold State.emit; split <;> rfl
@[simp] theorem State.emit_samplesToDo (s : State) (v : Int) : (s.emit v).samplesToDo = s.samplesToDo := by unfold State.emit; split <;> rfl
@[simp] theorem State.emit_blockIndex (s : State) (v : Int) : (s.emit v).blockIndex = s.blockIndex := by unfold State.emit; split <;> rfl
@[simp] theorem State.emit_intraOffset (s : State) (v : Int) : (s.emit v).intraOffset = s.intraOffset := by unfold State.emit; split <;> rfl
@[simp] theorem State.emit_blockAddr (s : State) (v : Int) : (s.emit v).blockAddr = s.blockAddr := by unfold State.emit; split <;> rfl
@[simp] theorem State.emit_coefBits (s : State) (v : Int) : (s.emit v).coefBits = s.coefBits := by unfold State.emit; split <;> rfl
@[simp] theorem State.emit_shiftBits (s : State) (v : Int) : (s.emit v).shiftBits = s.shiftBits := by unfold State.emit; split <;> rfl
@[simp] theorem State.emit_hist1 (s : State) (v : Int) : (s.emit v).hist1 = s.hist1 := by unfold State.emit; split <;> rfl
@[simp] theorem State.emit_hist2 (s : State) (v : Int) : (s.emit v).hist2 = s.hist2 := by unfold State.emit; split <;> rfl
@[simp] theorem State.emit_coef1 (s : State) (v : Int) : (s.emit v).coef1 = s.coef1 := by unfold State.emit; split <;> rfl
@[simp] theorem State.emit_coef2 (s : State) (v : Int) : (s.emit v).coef2 = s.coef2 := by unfold State.emit; split <;> rfl
@[simp] theorem State.emit_shift (s : State) (v : Int) : (s.emit v).shift = s.shift := by unfold State.emit; split <;> rfl
@[simp] theorem State.emit_nibWord (s : State) (v : Int) : (s.emit v).nibWord = s.nibWord := by unfold State.emit; split <;> rfl
@[simp] theorem State.emit_pos (s : State) (v : Int) : (s.emit v).pos = s.pos := by unfold State.emit; split <;> rfl
@[simp] theorem State.emit_g (s : State) (v : Int) : (s.emit v).g = s.g := by unfold State.emit; split <;> rfl
@[simp] theorem State.emit_source (s : State) (v : Int) : (s.emit v).source = s.source := by unfold State.emit; split <;> rfl
@[simp] theorem State.emit_readLog (s : State) (v : Int) : (s.emit v).readLog = s.readLog := by unfold State.emit; split <;> rfl
@[simp] theorem State.emit_stage (s : State) (v : Int) : (s.emit v).stage = s.stage := by unfold State.emit; split <;> rfl
@[simp] theorem State.emit_reply (s : State) (v : Int) : (s.emit v).reply = s.reply := by unfold State.emit; split <;> rfl
@[simp] theorem State.emit_tape (s : State) (v : Int) : (s.emit v).tape = s.tape := by unfold State.emit; split <;> rfl
@[simp] theorem State.emit_widths (s : State) (v : Int) : (s.emit v).widths = s.widths := by unfold State.emit; split <;> rfl
@[simp] theorem State.emit_draws (s : State) (v : Int) : (s.emit v).draws = s.draws := by unfold State.emit; split <;> rfl

/-! `State.updateHistory` -/

@[simp] theorem State.updateHistory_status (s : State) (v : Int) : (s.updateHistory v).status = s.status := rfl
@[simp] theorem State.updateHistory_samplesWritten (s : State) (v : Int) : (s.updateHistory v).samplesWritten = s.samplesWritten := rfl
@[simp] theorem State.updateHistory_faultInfo (s : State) (v : Int) : (s.updateHistory v).faultInfo = s.faultInfo := rfl
@[simp] theorem State.updateHistory_streamBase (s : State) (v : Int) : (s.updateHistory v).streamBase = s.streamBase := rfl
@[simp] theorem State.updateHistory_outSlot (s : State) (v : Int) : (s.updateHistory v).outSlot = s.outSlot := rfl
@[simp] theorem State.updateHistory_channelSpacing (s : State) (v : Int) : (s.updateHistory v).channelSpacing = s.channelSpacing := rfl
@[simp] theorem State.updateHistory_firstSample (s : State) (v : Int) : (s.updateHistory v).firstSample = s.firstSample := rfl
@[simp] theorem State.updateHistory_samplesToDo (s : State) (v : Int) : (s.updateHistory v).samplesToDo = s.samplesToDo := rfl
@[simp] theorem State.updateHistory_blockIndex (s : State) (v : Int) : (s.updateHistory v).blockIndex = s.blockIndex := rfl
@[simp] theorem State.updateHistory_intraOffset (s : State) (v : Int) : (s.updateHistory v).intraOffset = s.intraOffset := rfl
@[simp] theorem State.updateHistory_blockAddr (s : State) (v : Int) : (s.updateHistory v).blockAddr = s.blockAddr := rfl
@[simp] theorem State.updateHistory_coefBits (s : State) (v : Int) : (s.updateHistory v).coefBits = s.coefBits := rfl
@[simp] theorem State.updateHistory_shiftBits (s : State) (v : Int) : (s.updateHistory v).shiftBits = s.shiftBits := rfl
@[simp] theorem State.updateHistory_coef1 (s : State) (v : Int) : (s.updateHistory v).coef1 = s.coef1 := rfl
@[simp] theorem State.updateHistory_coef2 (s : State) (v : Int) : (s.updateHistory v).coef2 = s.coef2 := rfl
@[simp] theorem State.updateHistory_shift (s : State) (v : Int) : (s.updateHistory v).shift = s.shift := rfl
@[simp] theorem State.updateHistory_nibWord (s : State) (v : Int) : (s.updateHistory v).nibWord = s.nibWord := rfl
@[simp] theorem State.updateHistory_pos (s : State) (v : Int) : (s.updateHistory v).pos = s.pos := rfl
@[simp] theorem State.updateHistory_g (s : State) (v : Int) : (s.updateHistory v).g = s.g := rfl
@[simp] theorem State.updateHistory_samplesDone (s : State) (v : Int) : (s.updateHistory v).samplesDone = s.samplesDone := rfl
@[simp] theorem State.updateHistory_source (s : State) (v : Int) : (s.updateHistory v).source = s.source := rfl
@[simp] theorem State.updateHistory_outBuf (s : State) (v : Int) : (s.updateHistory v).outBuf = s.outBuf := rfl
@[simp] theorem State.updateHistory_readLog (s : State) (v : Int) : (s.updateHistory v).readLog = s.readLog := rfl
@[simp] theorem State.updateHistory_stage (s : State) (v : Int) : (s.updateHistory v).stage = s.stage := rfl
@[simp] theorem State.updateHistory_reply (s : State) (v : Int) : (s.updateHistory v).reply = s.reply := rfl
@[simp] theorem State.updateHistory_tape (s : State) (v : Int) : (s.updateHistory v).tape = s.tape := rfl
@[simp] theorem State.updateHistory_widths (s : State) (v : Int) : (s.updateHistory v).widths = s.widths := rfl
@[simp] theorem State.updateHistory_draws (s : State) (v : Int) : (s.updateHistory v).draws = s.draws := rfl

@[simp] theorem State.updateHistory_hist1 (s : State) (v : Int) : (s.updateHistory v).hist1 = BitVec.ofInt 32 v := rfl
@[simp] theorem State.updateHistory_hist2 (s : State) (v : Int) : (s.updateHistory v).hist2 = s.hist1 := rfl

/-! `State.countSample` -/

@[simp] theorem State.countSample_status (s : State) : (s.countSample).status = s.status := rfl
@[simp] theorem State.countSample_samplesWritten (s : State) : (s.countSample).samplesWritten = s.samplesWritten := rfl
@[simp] theorem State.countSample_faultInfo (s : State) : (s.countSample).faultInfo = s.faultInfo := rfl
@[simp] theorem State.countSample_streamBase (s : State) : (s.countSample).streamBase = s.streamBase := rfl
@[simp] theorem State.countSample_outSlot (s : State) : (s.countSample).outSlot = s.outSlot := rfl
@[simp] theorem State.countSample_channelSpacing (s : State) : (s.countSample).channelSpacing = s.channelSpacing := rfl
@[simp] theorem State.countSample_firstSample (s : State) : (s.countSample).firstSample = s.firstSample := rfl
@[simp] theorem State.countSample_samplesToDo (s : State) : (s.countSample).samplesToDo = s.samplesToDo := rfl
@[simp] theorem State.countSample_blockIndex (s : State) : (s.countSample).blockIndex = s.blockIndex := rfl
@[simp] theorem State.countSample_intraOffset (s : State) : (s.countSample).intraOffset = s.intraOffset := rfl
@[simp] theorem State.countSample_blockAddr (s : State) : (s.countSample).blockAddr = s.blockAddr := rfl
@[simp] theorem State.countSample_coefBits (s : State) : (s.countSample).coefBits = s.coefBits := rfl
@[simp] theorem State.countSample_shiftBits (s : State) : (s.countSample).shiftBits = s.shiftBits := rfl
@[simp] theorem State.countSample_hist1 (s : State) : (s.countSample).hist1 = s.hist1 := rfl
@[simp] theorem State.countSample_hist2 (s : State) : (s.countSample).hist2 = s.hist2 := rfl
@[simp] theorem State.countSample_coef1 (s : State) : (s.countSample).coef1 = s.coef1 := rfl
@[simp] theorem State.countSample_coef2 (s : State) : (s.countSample).coef2 = s.coef2 := rfl
@[simp] theorem State.countSample_shift (s : State) : (s.countSample).shift = s.shift := rfl
@[simp] theorem State.countSample_nibWord (s : State) : (s.countSample).nibWord = s.nibWord := rfl
@[simp] theorem State.countSample_pos (s : State) : (s.countSample).pos = s.pos := rfl
@[simp] theorem State.countSample_samplesDone (s : State) : (s.countSample).samplesDone = s.samplesDone := rfl
@[simp] theorem State.countSample_source (s : State) : (s.countSample).source = s.source := rfl
@[simp] theorem State.countSample_outBuf (s : State) : (s.countSample).outBuf = s.outBuf := rfl
@[simp] theorem State.countSample_readLog (s : State) : (s.countSample).readLog = s.readLog := rfl
@[simp] theorem State.countSample_stage (s : State) : (s.countSample).stage = s.stage := rfl
@[simp] theorem State.countSample_reply (s : State) : (s.countSample).reply = s.reply := rfl
@[simp] theorem State.countSample_tape (s : State) : (s.countSample).tape = s.tape := rfl
@[simp] theorem State.countSample_widths (s : State) : (s.countSample).widths = s.widths := rfl
@[simp] theorem State.countSample_draws (s : State) : (s.countSample).draws = s.draws := rfl

@[simp] theorem State.countSample_g (s : State) : s.countSample.g = s.g + 1 := rfl

/-! `State.takeSample` -/

@[simp] theorem State.takeSample_status (s : State) (v : Int) : (s.takeSample v).status = s.status := by
  simp [State.takeSample]
@[simp] theorem State.takeSample_samplesWritten (s : State) (v : Int) : (s.takeSample v).samplesWritten = s.samplesWritten := by
  simp [State.takeSample]
@[simp] theorem State.takeSample_faultInfo (s : State) (v : Int) : (s.takeSample v).faultInfo = s.faultInfo := by
  simp [State.takeSample]
@[simp] theorem State.takeSample_streamBase (s : State) (v : Int) : (s.takeSample v).streamBase = s.streamBase := by
  simp [State.takeSample]
@[simp] theorem State.takeSample_outSlot (s : State) (v : Int) : (s.takeSample v).outSlot = s.outSlot := by
  simp [State.takeSample]
@[simp] theorem State.takeSample_channelSpacing (s : State) (v : Int) : (s.takeSample v).channelSpacing = s.channelSpacing := by
  simp [State.takeSample]
@[simp] theorem State.takeSample_firstSample (s : State) (v : Int) : (s.takeSample v).firstSample = s.firstSample := by
  simp [State.takeSample]
@[simp] theorem State.takeSample_samplesToDo (s : State) (v : Int) : (s.takeSample v).samplesToDo = s.samplesToDo := by
  simp [State.takeSample]
@[simp] theorem State.takeSample_blockIndex (s : State) (v : Int) : (s.takeSample v).blockIndex = s.blockIndex := by
  simp [State.takeSample]
@[simp] theorem State.takeSample_intraOffset (s : State) (v : Int) : (s.takeSample v).intraOffset = s.intraOffset := by
  simp [State.takeSample]
@[simp] theorem State.takeSample_blockAddr (s : State) (v : Int) : (s.takeSample v).blockAddr = s.blockAddr := by
  simp [State.takeSample]
@[simp] theorem State.takeSample_coefBits (s : State) (v : Int) : (s.takeSample v).coefBits = s.coefBits := by
  simp [State.takeSample]
@[simp] theorem State.takeSample_shiftBits (s : State) (v : Int) : (s.takeSample v).shiftBits = s.shiftBits := by
  simp [State.takeSample]
@[simp] theorem State.takeSample_coef1 (s : State) (v : Int) : (s.takeSample v).coef1 = s.coef1 := by
  simp [State.takeSample]
@[simp] theorem State.takeSample_coef2 (s : State) (v : Int) : (s.takeSample v).coef2 = s.coef2 := by
  simp [State.takeSample]
@[simp] theorem State.takeSample_shift (s : State) (v : Int) : (s.takeSample v).shift = s.shift := by
  simp [State.takeSample]
@[simp] theorem State.takeSample_nibWord (s : State) (v : Int) : (s.takeSample v).nibWord = s.nibWord := by
  simp [State.takeSample]
@[simp] theorem State.takeSample_source (s : State) (v : Int) : (s.takeSample v).source = s.source := by
  simp [State.takeSample]
@[simp] theorem State.takeSample_readLog (s : State) (v : Int) : (s.takeSample v).readLog = s.readLog := by
  simp [State.takeSample]
@[simp] theorem State.takeSample_reply (s : State) (v : Int) : (s.takeSample v).reply = s.reply := by
  simp [State.takeSample]
@[simp] theorem State.takeSample_tape (s : State) (v : Int) : (s.takeSample v).tape = s.tape := by
  simp [State.takeSample]
@[simp] theorem State.takeSample_widths (s : State) (v : Int) : (s.takeSample v).widths = s.widths := by
  simp [State.takeSample]
@[simp] theorem State.takeSample_draws (s : State) (v : Int) : (s.takeSample v).draws = s.draws := by
  simp [State.takeSample]
@[simp] theorem State.takeSample_hist1 (s : State) (v : Int) : (s.takeSample v).hist1 = BitVec.ofInt 32 v := rfl
@[simp] theorem State.takeSample_hist2 (s : State) (v : Int) : (s.takeSample v).hist2 = s.hist1 := by
  simp [State.takeSample]
@[simp] theorem State.takeSample_pos (s : State) (v : Int) : (s.takeSample v).pos = s.pos.next := by
  simp [State.takeSample]
@[simp] theorem State.takeSample_stage (s : State) (v : Int) : (s.takeSample v).stage = s.pos.nextStage := by
  simp [State.takeSample]
@[simp] theorem State.takeSample_g (s : State) (v : Int) : (s.takeSample v).g = s.g + 1 := by
  simp [State.takeSample]
@[simp] theorem State.takeSample_samplesDone (s : State) (v : Int) :
    (s.takeSample v).samplesDone = if s.writes then s.samplesDone + 1 else s.samplesDone := by
  unfold State.takeSample State.emit
  split <;> rfl
@[simp] theorem State.takeSample_outBuf (s : State) (v : Int) :
    (s.takeSample v).outBuf =
      if s.writes then Memory.write s.outBuf s.nextSlot (BitVec.ofInt 16 v) else s.outBuf := by
  unfold State.takeSample State.emit
  split <;> rfl

/-- `takeSample` as one record update. -/
theorem State.takeSample_eq (s : State) (v : Int) :
    s.takeSample v = { s with
      hist1 := BitVec.ofInt 32 v
      hist2 := s.hist1
      g := s.g + 1
      samplesDone := if s.writes then s.samplesDone + 1 else s.samplesDone
      outBuf := if s.writes then Memory.write s.outBuf s.nextSlot (BitVec.ofInt 16 v) else s.outBuf
      pos := s.pos.next
      stage := s.pos.nextStage } := by
  unfold State.takeSample State.emit
  split <;> rfl

end Sys2Proof.Machine
end

