-- ==== Sys2Proof/Laws/Ops.lean ====
section
/-! SUPPORT. What each shared operation can do, once. -/

namespace Sys2Proof.Machine

/-- The state after a list of reads was asked of the source and none failed. -/
def State.afterReads (s : State) (reads : List (Nat × Nat)) : State := { s with readLog := s.readLog ++ reads }

@[simp] theorem State.afterReads_nil (s : State) : s.afterReads [] = s := by
  simp [State.afterReads]

theorem State.afterReads_cons (s : State) (a n : Nat) (rest : List (Nat × Nat)) :
    s.afterReads ((a, n) :: rest) = (s.logRead a n).afterReads rest := by
  simp [State.afterReads, State.logRead]

/-- `MemRead`s that all succeed: the reads are asked in order, and the meaning goes on. -/
theorem State.memReads_ok (s : State) (reads : List (Nat × Nat)) (k : State → Host.Outcome State Fault Refusal)
    (h : ∀ r ∈ reads, Memory.readable s.source r.1 r.2 = true) : s.memReads reads k = k (s.afterReads reads) := by
  induction reads generalizing s with
  | nil => simp [State.memReads]
  | cons r rest ih =>
    obtain ⟨a, n⟩ := r
    rw [State.memReads, if_pos (h (a, n) (by simp)), State.afterReads_cons]
    exact ih (s.logRead a n) fun r hr => h r (by simp [hr])

/-- `MemRead`s of which one fails: the ones before it were asked and succeeded, it was asked, none after it, and
`ReadFault` is taken at it (R303, R304). -/
theorem State.memReads_fault (s : State) (pre post : List (Nat × Nat)) (a n : Nat)
    (k : State → Host.Outcome State Fault Refusal) (hpre : ∀ r ∈ pre, Memory.readable s.source r.1 r.2 = true)
    (hfail : Memory.readable s.source a n = false) :
    s.memReads (pre ++ (a, n) :: post) k = .next ((s.afterReads (pre ++ [(a, n)])).takeReadFault a n) := by
  induction pre generalizing s with
  | nil => simp [State.memReads, hfail, State.afterReads, State.logRead]
  | cons r rest ih =>
    obtain ⟨b, m⟩ := r
    simp only [List.cons_append]
    rw [State.memReads, if_pos (hpre (b, m) (by simp)), State.afterReads_cons]
    exact ih (s.logRead b m) (fun r hr => hpre r (by simp [hr])) hfail

/-- Everything `memReads` can do. -/
theorem State.memReads_cases (s : State) (reads : List (Nat × Nat)) (k : State → Host.Outcome State Fault Refusal) :
    ((∀ r ∈ reads, Memory.readable s.source r.1 r.2 = true) ∧ s.memReads reads k = k (s.afterReads reads)) ∨
    ∃ pre a n post, reads = pre ++ (a, n) :: post ∧ (∀ r ∈ pre, Memory.readable s.source r.1 r.2 = true) ∧
      Memory.readable s.source a n = false ∧
      s.memReads reads k = .next ((s.afterReads (pre ++ [(a, n)])).takeReadFault a n) := by
  by_cases h : ∀ r ∈ reads, Memory.readable s.source r.1 r.2 = true
  · exact .inl ⟨h, s.memReads_ok reads k h⟩
  · right
    obtain ⟨pre, ⟨a, n⟩, post, hsplit, hpre, hf⟩ : ∃ pre r post, reads = pre ++ r :: post ∧
        (∀ x ∈ pre, Memory.readable s.source x.1 x.2 = true) ∧ Memory.readable s.source r.1 r.2 = false := by
      clear k
      induction reads with
      | nil => exact absurd (fun r hr => by simp at hr) h
      | cons r rest ih =>
        by_cases hr : Memory.readable s.source r.1 r.2 = true
        · have : ¬ ∀ x ∈ rest, Memory.readable s.source x.1 x.2 = true := fun hall =>
            h fun x hx => by
              rcases List.mem_cons.mp hx with rfl | hx
              · exact hr
              · exact hall x hx
          obtain ⟨pre, y, post, hs, hp, hy⟩ := ih this
          refine ⟨r :: pre, y, post, by simp [hs], fun x hx => ?_, hy⟩
          rcases List.mem_cons.mp hx with rfl | hx
          · exact hr
          · exact hp x hx
        · exact ⟨[], r, rest, rfl, by simp, by simpa using hr⟩
    exact ⟨pre, a, n, post, hsplit, hpre, hf, hsplit ▸ s.memReads_fault pre post a n k hpre hf⟩

/-- The operands of an instruction whose reads do not all succeed never enter the result (R301, no substitute for a byte
that could not be read; log 2). -/
theorem State.memReads_fault_ignores (s : State) (reads : List (Nat × Nat))
    (k k' : State → Host.Outcome State Fault Refusal)
    (h : ¬ ∀ r ∈ reads, Memory.readable s.source r.1 r.2 = true) : s.memReads reads k = s.memReads reads k' := by
  rcases s.memReads_cases reads k with ⟨hall, _⟩ | ⟨pre, a, n, post, hs, hpre, hf, hk⟩
  · exact absurd hall h
  · rw [hk, hs, s.memReads_fault pre post a n k' hpre hf]

/-- `takeReadFault` leaves every slot outside the call's window alone (R305). -/
theorem State.takeReadFault_outside (s : State) (a n c : Nat)
    (h : ∀ m < s.windowSize, c ≠ s.outSlot + m * s.channelSpacing) :
    Memory.read (s.takeReadFault a n).outBuf c = Memory.read s.outBuf c :=
  read_freeSlots_outside _ _ _ _ _ _ h

/-- The free `SHIFT` keeps its bound (R26). -/
theorem freshShift_range (d : Nat) :
    7 ≤ (BitVec.ofNat 5 (7 + Config.freeNat d % 16)).toNat ∧ (BitVec.ofNat 5 (7 + Config.freeNat d % 16)).toNat ≤ 22 := by
  simp only [BitVec.toNat_ofNat]
  omega

/-- The effective shift is 7 to 22 (R101). -/
theorem toNat_effectiveShift (sf : Nibble) : (effectiveShift sf).toNat = 22 - sf.toNat := by
  have := sf.isLt
  simp only [effectiveShift, shiftBias, BitVec.toNat_ofNat]
  omega

/-- The clamp keeps within the 16-bit range (R222). -/
theorem clamp16_range (v : Int) : -32768 ≤ clamp16 v ∧ clamp16 v ≤ 32767 := by
  unfold clamp16 sampleMin sampleMax
  split
  · omega
  · split <;> omega

/-- What enters the history reads back as itself (R223). -/
theorem toInt_ofInt_clamp16 (v : Int) : (BitVec.ofInt 32 (clamp16 v)).toInt = clamp16 v := by
  have := clamp16_range v
  rw [BitVec.toInt_ofInt, Int.bmod_def]
  split <;> omega

/-- `HDR` where its reads succeed. -/
theorem exec_hdr_ok (s : State) (cb sb : Word) (h1 h2 : Half)
    (h : ∀ r ∈ s.headerReads, Memory.readable s.source r.1 r.2 = true) :
    exec (.hdr cb sb h1 h2) s = .next { s with
      readLog := s.readLog ++ s.headerReads
      coefBits := cb
      shiftBits := sb
      hist1 := sext16 h1
      hist2 := sext16 h2
      stage := .boundary } :=
  s.memReads_ok _ _ h

/-- `NIBW` where its read succeeds. -/
theorem exec_nibw_ok (s : State) (w : Word) (h : Memory.readable s.source s.nibbleWordAddr 4 = true) :
    exec (.nibw w) s = .next { s with
      readLog := s.readLog ++ s.nibbleReads
      nibWord := w
      stage := .nibble } :=
  s.memReads_ok _ _ (by simpa [State.nibbleReads] using h)

/-- `SAMPLE` is `takeSample` of a clamped value (R224). Use this, not the unfolded meaning: the value stays opaque. -/
theorem exec_sample (s : State) (n : Nibble) : exec (.sample n) s = .next (s.takeSample (s.datapath n).clamped) := rfl

/-- The value a `SAMPLE` clamps is a 16-bit one, so the history and the slot read it back (R222, R223). -/
theorem toInt_ofInt_of_range (v : Int) (h : -32768 ≤ v ∧ v ≤ 32767) :
    (BitVec.ofInt 32 v).toInt = v ∧ (BitVec.ofInt 16 v).toInt = v := by
  constructor <;> rw [BitVec.toInt_ofInt, Int.bmod_def] <;> split <;> omega

/-- An accepted command. -/
theorem State.refusal_none_iff (s : State) (c : Command) : s.refusal c = none ↔ s.accepts c := by
  unfold State.refusal State.accepts
  constructor
  · intro h
    repeat' split at h
    all_goals simp_all
    omega
  · rintro ⟨h1, h2, h3, h4, h5⟩
    simp [h1, h3, h4, h5]
    omega

/-- `DECODE`, accepted. -/
theorem exec_decode_accepted {s : State} {c : Command} (h : s.accepts c) : exec c.instr s = .next (s.startCall c) := by
  have hn : s.refusal ⟨c.base, c.out, c.spacing, c.first, c.count⟩ = none := (s.refusal_none_iff c).mpr h
  simp only [Command.instr, exec, execDecode, hn]

/-- `DECODE`, refused. -/
theorem exec_decode_refused {s : State} {c : Command} (h : ¬ s.accepts c) :
    ∃ r, s.refusal c = some r ∧ exec c.instr s = .next (s.refuse r) := by
  rcases hr : s.refusal c with _ | r
  · exact absurd ((s.refusal_none_iff c).mp hr) h
  · have hr' : s.refusal ⟨c.base, c.out, c.spacing, c.first, c.count⟩ = some r := hr
    exact ⟨r, rfl, by simp only [Command.instr, exec, execDecode, hr']⟩

/-- A step with the host silent is the decoder's turn. -/
theorem step_silent {s : State} (h : s.hostSilent) : step s = decoderTurn s.popped := by
  rcases h with h | ⟨rest, h⟩
  · have hs : s.popped = s := by
      obtain ⟨⟩ := s
      simp_all [State.popped]
    simp only [step, h, hs]
  · simp only [step, h, State.popped, List.tail_cons]

/-- When a call is over. -/
@[simp] theorem State.callOver_eq_true (s : State) : s.callOver = true ↔ s.status ≠ .busy := by
  simp [State.callOver]

/-- The decoder's turn in a call. -/
theorem decoderTurn_busy {s : State} (h : s.status = .busy) :
    decoderTurn s = match s.upcoming with
      | some raw => exec (decodeRaw raw) s
      | none => .next s.finish :=
  if_pos h

/-- The decoder's turn between calls. -/
theorem decoderTurn_idle {s : State} (h : s.status ≠ .busy) : decoderTurn s = .next s := by
  rw [decoderTurn, if_neg h]

/-- Every descriptor's meaning is `beginSubframe` of the two fields (R96, R172). -/
theorem exec_descriptor (d : BitVec 8) (s : State) :
    exec (decodeDescriptor d) s = .next (beginSubframe (d.extractLsb' 0 4) (d.extractLsb' 4 4) s) := by
  have key : d.toNat % 16 = (d.extractLsb' 0 4).toNat := by simp
  have hlt : d.toNat % 16 < 16 := Nat.mod_lt _ (by omega)
  have hx : d.extractLsb' 0 4 = BitVec.ofNat 4 (d.toNat % 16) := by
    apply BitVec.eq_of_toNat_eq
    simp
  rw [hx, decodeDescriptor]
  generalize d.toNat % 16 = m at hlt
  match m, hlt with
  | 0, _ | 1, _ | 2, _ | 3, _ | 4, _ | 5, _ | 6, _ | 7, _ => rfl
  | 8, _ | 9, _ | 10, _ | 11, _ | 12, _ | 13, _ | 14, _ | 15, _ => rfl
  | m + 16, h => omega

end Sys2Proof.Machine
end

