-- ==== Sys2Proof/Laws/PerInstr.lean ====
section
/-! SUPPORT. Laws about every instruction as syntax, one lemma per constructor. -/

namespace Sys2Proof.Laws.FormatOfEncoding

/-- The encoding of an instruction stands in the instruction's own format (R90) and has that format's fixed length (R105); one
with no bits has no bytes (R97). -/
def Statement (i : Instr) : Prop :=
  (encodeRaw i).format = i.format ∧ (encodeBytes i).length = formatBytes i.format

theorem decode (base out spacing first count : Nat) : Statement (.decode base out spacing first count) := ⟨rfl, rfl⟩
theorem hdr (coefBits shiftBits : Word) (hist1 hist2 : Half) : Statement (.hdr coefBits shiftBits hist1 hist2) := ⟨rfl, rfl⟩
theorem mode0 (shiftFactor : Nibble) : Statement (.mode0 shiftFactor) := ⟨rfl, rfl⟩
theorem mode1 (shiftFactor : Nibble) : Statement (.mode1 shiftFactor) := ⟨rfl, rfl⟩
theorem mode2 (shiftFactor : Nibble) : Statement (.mode2 shiftFactor) := ⟨rfl, rfl⟩
theorem mode3 (shiftFactor : Nibble) : Statement (.mode3 shiftFactor) := ⟨rfl, rfl⟩
theorem mode4 (shiftFactor : Nibble) : Statement (.mode4 shiftFactor) := ⟨rfl, rfl⟩
theorem mode5 (shiftFactor : Nibble) : Statement (.mode5 shiftFactor) := ⟨rfl, rfl⟩
theorem mode6 (shiftFactor : Nibble) : Statement (.mode6 shiftFactor) := ⟨rfl, rfl⟩
theorem mode0A7 (shiftFactor : Nibble) : Statement (.mode0A7 shiftFactor) := ⟨rfl, rfl⟩
theorem mode1A8 (shiftFactor : Nibble) : Statement (.mode1A8 shiftFactor) := ⟨rfl, rfl⟩
theorem mode2A9 (shiftFactor : Nibble) : Statement (.mode2A9 shiftFactor) := ⟨rfl, rfl⟩
theorem mode3A10 (shiftFactor : Nibble) : Statement (.mode3A10 shiftFactor) := ⟨rfl, rfl⟩
theorem mode4A11 (shiftFactor : Nibble) : Statement (.mode4A11 shiftFactor) := ⟨rfl, rfl⟩
theorem mode5A12 (shiftFactor : Nibble) : Statement (.mode5A12 shiftFactor) := ⟨rfl, rfl⟩
theorem mode6A13 (shiftFactor : Nibble) : Statement (.mode6A13 shiftFactor) := ⟨rfl, rfl⟩
theorem mode0A14 (shiftFactor : Nibble) : Statement (.mode0A14 shiftFactor) := ⟨rfl, rfl⟩
theorem mode1A15 (shiftFactor : Nibble) : Statement (.mode1A15 shiftFactor) := ⟨rfl, rfl⟩
theorem nibw (word : Word) : Statement (.nibw word) := ⟨rfl, rfl⟩
theorem sample (n : Nibble) : Statement (.sample n) := ⟨rfl, rfl⟩

end Sys2Proof.Laws.FormatOfEncoding
end

