-- ==== Sys2Proof/Laws/Range.lean ====
section
/-! SUPPORT. The loop of `DECODE_RANGE` one round at a time. -/

namespace Sys2Proof.Machine

@[simp] theorem decodeRangeFuel_zero (base sp fuel first out : Nat) : decodeRangeFuel base sp fuel first out 0 = [] := by
  cases fuel <;> simp [decodeRangeFuel]

/-- A round takes at least one sample and at most what is left. -/
theorem rangeChunk_pos {first count : Nat} (h : 0 < count) : 0 < rangeChunk first count ∧ rangeChunk first count ≤ count := by
  unfold rangeChunk blockSamples
  omega

/-- Fuel that covers the range does not matter. -/
theorem decodeRangeFuel_congr (base sp : Nat) (f f' first out count : Nat) (h : count ≤ f) (h' : count ≤ f') :
    decodeRangeFuel base sp f first out count = decodeRangeFuel base sp f' first out count := by
  induction f generalizing f' first out count with
  | zero =>
    obtain rfl : count = 0 := by omega
    simp
  | succ f ih =>
    by_cases h0 : count = 0
    · subst h0
      simp
    · have hc := rangeChunk_pos (first := first) (Nat.pos_of_ne_zero h0)
      cases f' with
      | zero => omega
      | succ f' =>
        simp only [decodeRangeFuel, if_neg h0]
        rw [ih f' _ _ _ (by omega) (by omega)]

theorem decodeRange_zero (base out sp first : Nat) : decodeRange base out sp first 0 = [] := rfl

/-- One round of R108's loop. -/
theorem decodeRange_pos (base out sp first : Nat) {count : Nat} (h : 0 < count) :
    decodeRange base out sp first count =
      ⟨base, out, sp, first, rangeChunk first count⟩ ::
        decodeRange base (out + rangeChunk first count * sp) sp (first + rangeChunk first count)
          (count - rangeChunk first count) := by
  have hc := rangeChunk_pos (first := first) h
  obtain ⟨k, rfl⟩ : ∃ k, count = k + 1 := ⟨count - 1, by omega⟩
  rw [decodeRange, decodeRangeFuel, if_neg (by omega), decodeRange]
  exact congrArg _ (decodeRangeFuel_congr base sp k (k + 1 - rangeChunk first (k + 1)) _ _ _ (by omega) (by omega))

/-- There is nothing to wait for once the call is over. -/
theorem waitFuel_callOver (fuel : Nat) {s : State} (h : s.callOver = true) : waitFuel fuel s = .next s := by
  cases fuel <;> simp [waitFuel, h]

/-- Everything a round of the host's loop does when its command and its wait answer next states. -/
theorem issueCommands_cons {c : Command} {s t u : State} (rest : List Command) (ht : exec c.instr s = .next t)
    (hu : t.awaitCall = .next u) :
    issueCommands (c :: rest) s = if u.status = .fault then .next u else issueCommands rest u := by
  simp only [issueCommands, ht, hu]

end Sys2Proof.Machine
end

