-- ==== Sys2Proof/Tests/Slice0.lean ====
section
/-! SUPPORT. Tests, each about one step or one encoding, with expected results from the spec (worked examples of the rules,
95_test_vectors.md); and for every obligation that has hypotheses a witness that meets them, clause by clause. -/

namespace Sys2Proof.Tests

open Sys2Proof.Machine

/-! Well-formedness -/

/-- R33: `channel_spacing` is at least 1. The ill-formed term is refused. -/
theorem test_wellFormed_refuses_spacing_zero : (Instr.decode 0 0 0 0 256).wellFormed = false := by decide

theorem test_wellFormed_accepts_spacing_one : (Instr.decode 0 0 1 0 256).wellFormed = true := by decide

/-- R104: the extreme fields of the other formats are all legal. -/
theorem test_wellFormed_accepts_every_field :
    (Instr.hdr 0xFFFFFFFF 0xFFFFFFFF 0x7FFF 0x8000).wellFormed = true ∧ (Instr.mode1A15 15).wellFormed = true ∧
      (Instr.nibw 0xFFFFFFFF).wellFormed = true ∧ (Instr.sample 8).wellFormed = true := by decide

/-! Decoding: words written out from the encodings -/

/-- R150, the header example; bit 95 down to bit 0 (R92). -/
theorem test_decode_hdr :
    decodeRaw (.h 0xF830_1234_2FCA8530_F9643210) = .hdr 0xF9643210 0x2FCA8530 0x1234 0xF830 := by decide

/-- 95_test_vectors.md 2.2, last row, as bytes. -/
theorem test_decode_hdr_bytes :
    decodeBytes .h [0xef, 0xcd, 0xab, 0x89, 0x67, 0x45, 0x23, 0x01, 0xff, 0xff, 0x01, 0x00] =
      .ok (.hdr 0x89ABCDEF 0x01234567 0xFFFF 0x0001, []) := by decide

/-- R103: shift factor in bits 7:4, opcode in bits 3:0, one word per constructor. -/
theorem test_decode_modes :
    decodeRaw (.d 0b0000_0000) = .mode0 0 ∧ decodeRaw (.d 0b0011_0001) = .mode1 3 ∧
    decodeRaw (.d 0b0101_0010) = .mode2 5 ∧ decodeRaw (.d 0b1000_0011) = .mode3 8 ∧
    decodeRaw (.d 0b1010_0100) = .mode4 10 ∧ decodeRaw (.d 0b0001_0101) = .mode5 1 ∧
    decodeRaw (.d 0b1100_0110) = .mode6 12 := by decide

theorem test_decode_aliases :
    decodeRaw (.d 0b1111_0111) = .mode0A7 15 ∧ decodeRaw (.d 0b0010_1000) = .mode1A8 2 ∧
    decodeRaw (.d 0b1111_1001) = .mode2A9 15 ∧ decodeRaw (.d 0b0100_1010) = .mode3A10 4 ∧
    decodeRaw (.d 0b0110_1011) = .mode4A11 6 ∧ decodeRaw (.d 0b0111_1100) = .mode5A12 7 ∧
    decodeRaw (.d 0b1001_1101) = .mode6A13 9 ∧ decodeRaw (.d 0b1011_1110) = .mode0A14 11 ∧
    decodeRaw (.d 0b0010_1111) = .mode1A15 2 := by decide

/-- R200, the nibble word example. -/
theorem test_decode_nibw : decodeBytes .w [0xef, 0xcd, 0xab, 0x89] = .ok (.nibw 0x89ABCDEF, []) := by decide

/-- R95: the pattern 1101 is -3. -/
theorem test_decode_sample : decodeRaw (.n 0b1101) = .sample 0xD ∧ (0xD : Nibble).toInt = -3 := by decide

/-- R97: a command is its five operands. -/
theorem test_decode_command : decodeRaw (.cmd ⟨64, 0, 1, 250, 6⟩) = .decode 64 0 1 250 6 := by decide

/-- A list too short for its format, and a place that has no bits, are rejected by name. -/
theorem test_decode_rejects :
    decodeBytes .w [0xef, 0xcd, 0xab] = .error (.tooShort .w 3) ∧ decodeBytes .cmd [] = .error .commandHasNoBits ∧
      decodeBytes .n [0x1D] = .error .notOneNibble := by decide

/-- The opcode table's numbering: one word of each width. -/
theorem test_decodeTableWord :
    decodeTableWord 96 0xF830_1234_2FCA8530_F9643210 = some (.hdr 0xF9643210 0x2FCA8530 0x1234 0xF830) ∧
    decodeTableWord 8 0xF9 = some (.mode2A9 15) ∧ decodeTableWord 32 0x89ABCDEF = some (.nibw 0x89ABCDEF) ∧
    decodeTableWord 4 0xD = some (.sample 0xD) ∧ decodeTableWord 0 0 = some (.decode 0 0 0 0 0) := by decide

/-! Small states -/

/-- The next state of an outcome. -/
def next? (o : Host.Outcome State Fault Refusal) : Option State :=
  match o with
  | .next t => some t
  | .fault _ => none
  | .refused _ => none

/-- The header of block M (95_test_vectors.md P3). -/
def headerM : List Byte := [0x10, 0x32, 0x64, 0xf9, 0x30, 0x85, 0xca, 0x2f, 0x34, 0x12, 0x30, 0xf8]

/-- Half a subframe of block M: two nibble words. -/
def wordsM : List Byte := [0x83, 0x2d, 0xc7, 0x61, 0x0b, 0xa5, 0x4f, 0xe9]

/-- A call on block 0 for the whole block, at a place of the loop, over a source that holds `bs` from address 0. -/
def inCall (stage : Stage) (pos : SeqPos) (bs : List Byte) : State :=
  { State.reset with
    status := .busy
    samplesToDo := 256
    source := Memory.writeBytes [] 0 bs
    stage := stage
    pos := pos
    g := pos.index }

/-- A call before a `SAMPLE`, with a history, a pair and a shift. -/
def atSample (h1 h2 : Int) (c1 c2 : Byte) (shift : BitVec 5) : State :=
  { inCall .nibble ⟨0, 0, 0⟩ [] with
    hist1 := BitVec.ofInt 32 h1
    hist2 := BitVec.ofInt 32 h2
    coef1 := c1
    coef2 := c2
    shift := shift }

/-- The sample a descriptor gives for one nibble and a history (the setting of 95_test_vectors.md 2.3). -/
def sampleAfter (i : Instr) (n : Nibble) (h1 h2 : Int) : Option Int :=
  ((next? (exec i (atSample h1 h2 1 1 7))).bind fun t => next? (exec (.sample n) t)).map fun v => v.hist1.toInt

/-! One step of each instruction -/

/-- 95_test_vectors.md 2.1: base 0x800, first 1000. -/
theorem test_decode_locates :
    (next? (exec (.decode 0x800 0 1 1000 4) State.reset)).map (fun t => (t.blockIndex, t.intraOffset, t.blockAddr)) =
      some (3, 232, 0x9a4) := by decide

/-- R121: a command with `channel_spacing` 0 leaves `STATUS` as it is. -/
theorem test_decode_refuses_spacing_zero :
    (next? (exec (.decode 0 0 0 0 1) State.reset)).map (fun t => (t.status, t.reply)) =
      some (.idle, .refused .spacingZero) := by decide

/-- R150, the example, through the step: the bits are fetched, decoded and loaded. -/
theorem test_hdr_loads :
    (next? (step (inCall .header ⟨0, 0, 0⟩ headerM))).map (fun t => (t.coefBits, t.shiftBits, t.hist1.toInt, t.hist2.toInt)) =
      some (0xF9643210, 0x2FCA8530, 4660, -2000) := by decide

/-- R303: the third read fails, the fourth is not made. -/
theorem test_hdr_faults :
    (next? (step (inCall .header ⟨0, 0, 0⟩ (headerM.take 9)))).map (fun t =>
      (t.status, t.faultInfo.addr, t.faultInfo.size, t.readLog)) =
      some (.fault, 8, 2, [(0, 4), (4, 4), (8, 2)]) := by decide

/-! 95_test_vectors.md 2.3: nibble 3 after (1000, -500), and nibble 13 after (-1000, 500), at shift factor 2. -/

theorem test_mode0 : sampleAfter (.mode0 2) 3 1000 (-500) = some 12 ∧ sampleAfter (.mode0 2) 13 (-1000) 500 = some (-12) := by
  decide
theorem test_mode1 : sampleAfter (.mode1 2) 3 1000 (-500) = some 949 ∧ sampleAfter (.mode1 2) 13 (-1000) 500 = some (-950) := by
  decide
theorem test_mode2 : sampleAfter (.mode2 2) 3 1000 (-500) = some 2387 ∧ sampleAfter (.mode2 2) 13 (-1000) 500 = some (-2387) := by
  decide
theorem test_mode3 : sampleAfter (.mode3 2) 3 1000 (-500) = some 2215 ∧ sampleAfter (.mode3 2) 13 (-1000) 500 = some (-2216) := by
  decide
theorem test_mode4 : sampleAfter (.mode4 2) 3 1000 (-500) = some 1972 ∧ sampleAfter (.mode4 2) 13 (-1000) 500 = some (-1973) := by
  decide
theorem test_mode5 : sampleAfter (.mode5 2) 3 1000 (-500) = some 12 ∧ sampleAfter (.mode5 2) 13 (-1000) 500 = some (-12) := by
  decide
theorem test_mode6 : sampleAfter (.mode6 2) 3 1000 (-500) = some 12 ∧ sampleAfter (.mode6 2) 13 (-1000) 500 = some (-12) := by
  decide
theorem test_mode0A7 : sampleAfter (.mode0A7 2) 3 1000 (-500) = some 12 := by decide
theorem test_mode1A8 : sampleAfter (.mode1A8 2) 3 1000 (-500) = some 949 := by decide
theorem test_mode2A9 : sampleAfter (.mode2A9 2) 3 1000 (-500) = some 2387 := by decide
theorem test_mode3A10 : sampleAfter (.mode3A10 2) 3 1000 (-500) = some 2215 := by decide
theorem test_mode4A11 : sampleAfter (.mode4A11 2) 3 1000 (-500) = some 1972 := by decide
theorem test_mode5A12 : sampleAfter (.mode5A12 2) 3 1000 (-500) = some 12 := by decide
theorem test_mode6A13 : sampleAfter (.mode6A13 2) 3 1000 (-500) = some 12 := by decide
theorem test_mode0A14 : sampleAfter (.mode0A14 2) 3 1000 (-500) = some 12 := by decide
theorem test_mode1A15 : sampleAfter (.mode1A15 2) 3 1000 (-500) = some 949 := by decide

/-- R200, the example: word (2, 1) of a block at 0 is at 0x30. -/
theorem test_nibw_loads :
    (next? (step { inCall .boundary ⟨2, 1, 0⟩ [] with source := Memory.writeBytes [] 0x30 [0xef, 0xcd, 0xab, 0x89] })).map
      (fun t => (t.nibWord, t.readLog)) = some (0x89ABCDEF, [(0x30, 4)]) := by decide

/-- 95_test_vectors.md P6: the source ends after 32 bytes, the read at (32, 4) fails. -/
theorem test_nibw_faults :
    (next? (step (inCall .boundary ⟨1, 1, 0⟩ (List.replicate 32 0)))).map (fun t =>
      (t.status, t.faultInfo.addr, t.faultInfo.size)) = some (.fault, 32, 4) := by decide

/-- R224, the example: block M at `G = 65`. -/
theorem test_sample_predicts :
    (next? (exec (.sample 8) (atSample 4 (-83) 122 60 17))).map (fun t =>
      (t.hist1.toInt, t.hist2.toInt, (Memory.read t.outBuf 0).map fun w => w.toInt)) = some (-171, 4, some (-171)) := by decide

/-- 95_test_vectors.md P3 at `g` = 193: -192002 clamps to -32768; a discarded sample still updates the history (R254). -/
theorem test_sample_clamps_and_discards :
    (next? (exec (.sample 8) { atSample 32767 (-8192) 122 60 7 with intraOffset := 1 })).map (fun t =>
      (t.hist1.toInt, t.hist2.toInt, t.g, t.samplesDone, t.outBuf.length)) = some (-32768, 32767, 1, 0, 0) := by decide

/-! The step -/

/-- R250: after `HDR`, the descriptor of subframe 6 of block M (`0xF9`, R172's example) is gathered from the latched words. -/
theorem test_step_gathers_descriptor :
    (next? (step { inCall .boundary ⟨6, 0, 0⟩ [] with coefBits := 0xF9643210, shiftBits := 0x2FCA8530 })).map
      (fun t => (t.coef1.toInt, t.coef2.toInt, t.shift.toNat)) = some (122, 60, 7) := by decide

/-- R201: nibble 1 of the word 0x89ABCDEF is E, that is -2; with the raw pair at shift factor 0 it is the sample. -/
theorem test_step_takes_nibble_k :
    (next? (step { atSample 0 0 0 0 22 with nibWord := 0x89ABCDEF, pos := ⟨0, 0, 1⟩ })).map (fun t => t.hist1.toInt) =
      some (-2) := by decide

/-- R340: reset in a call. -/
theorem test_step_reset :
    (next? (step { inCall .fetch ⟨0, 0, 0⟩ [] with tape := [some .reset] })).map (fun t => (t.status, t.tape)) =
      some (.idle, []) := by decide

/-- Every format placed by `withFetchWord` runs as the first instruction after reset. -/
theorem test_withFetchWord_runs :
    (next? (step (State.reset.withFetchWord 96 0xF830_1234_2FCA8530_F9643210))).map (fun t => t.shiftBits) =
      some 0x2FCA8530 ∧
    (next? (step (State.reset.withFetchWord 8 0xF9))).map (fun t => (t.coef1.toInt, t.shift.toNat)) = some (122, 7) ∧
    (next? (step (State.reset.withFetchWord 32 0x89ABCDEF))).map (fun t => t.nibWord) = some 0x89ABCDEF ∧
    (next? (step (State.reset.withFetchWord 4 0xD))).map (fun t => t.hist1.toInt) = some (-3) ∧
    (next? (step (State.reset.withFetchWord 0 0))).map (fun t => t.reply) = some (.refused .spacingZero) := by decide

/-- The canonical form holds at reset, of both memories. -/
theorem test_reset_memories_wf :
    Memory.wf State.reset.source = true ∧ Memory.wf State.reset.outBuf = true := by decide

/-- 95_test_vectors.md P4: the two commands of the range. -/
theorem test_range_splits :
    decodeRange 0x40 0 1 250 12 = [⟨0x40, 0, 1, 250, 6⟩, ⟨0x40, 6, 1, 256, 6⟩] := by decide

/-- R108: on an empty source the first command of a range ends in `FAULT` at its header, and the second is never issued. -/
theorem test_range_stops_at_fault :
    (next? (runRange 0x40 0 1 250 12 State.reset)).map (fun t => (t.status, t.outSlot, t.firstSample, t.readLog)) =
      some (.fault, 0, 250, [(0x40, 4)]) := by decide

/-- R125: the same read that fails on the same source reports the same error, whatever was drawn before. -/
theorem test_equal_calls_fail_alike (draws : Nat) :
    ({ inCall .header ⟨0, 0, 0⟩ [] with draws := draws }.takeReadFault 0 4).faultInfo =
      ((inCall .header ⟨0, 0, 0⟩ []).takeReadFault 0 4).faultInfo := rfl

/-! Witnesses. Each meets together all hypotheses of the obligation it is named after, one theorem for each clause. -/

/-- The source of one whole block of zeros at address 0. -/
def zeroBlock : List Host.Cell := Memory.writeBytes [] 0 (List.replicate 140 0)

/-- Finite widths: 8-bit addresses and slots. -/
def narrow : State := { State.reset with widths := ⟨some 8, some 16, some 9, some 4, some 8⟩ }

theorem witness_EncodedBytesDecodeToTheirInstr : (Instr.nibw 0x89ABCDEF).format ≠ .cmd := by decide

theorem witness_AcceptedBytesAreTheEncoding :
    decodeBytes .d [0xF9, 0x00] = .ok (.mode2A9 15, [0x00]) := by decide

/-- Twelve bytes are a header, eleven are not. -/
theorem witness_NoEncodingIsIllegal :
    formatBytes .h ≤ headerM.length ∧ (headerM.take 11).length < formatBytes .h := by decide

theorem witness_StepRunsTheDecodedInstruction_command :
    { State.reset with tape := [some (.command ⟨0, 0, 1, 0, 256⟩)] }.tape = some (.command ⟨0, 0, 1, 0, 256⟩) :: [] := rfl

theorem witness_StepRunsTheDecodedInstruction_header :
    let s := inCall .header ⟨0, 0, 0⟩ headerM
    s.tape = [] ∧ s.status = .busy ∧ s.stage = .header ∧
      decodeBytes .h (Memory.bytesAt s.source s.blockAddr 12) = .ok (.hdr 0xF9643210 0x2FCA8530 0x1234 0xF830, []) := by
  decide

theorem witness_StepRunsTheDecodedInstruction_descriptor :
    let s := { inCall .boundary ⟨7, 0, 0⟩ [] with coefBits := 0xF9643210, shiftBits := 0x2FCA8530 }
    s.tape = [] ∧ s.status = .busy ∧ s.stage = .boundary ∧ s.samplesDone < s.samplesToDo ∧ s.pos.j = 0 ∧
      decodeBytes .d [s.shiftBits.extractLsb' (4 * s.pos.i.val) 4 ++ s.coefBits.extractLsb' (4 * s.pos.i.val) 4] =
        .ok (.mode1A15 2, []) := by decide

theorem witness_StepRunsTheDecodedInstruction_word :
    let s := inCall .fetch ⟨0, 0, 0⟩ (headerM ++ wordsM)
    let u := inCall .boundary ⟨0, 1, 0⟩ (headerM ++ wordsM)
    s.tape = [] ∧ s.status = .busy ∧ s.stage = .fetch ∧
      decodeBytes .w (Memory.bytesAt s.source (s.blockAddr + 0x0c) 4) = .ok (.nibw 0x61C72D83, []) ∧
    u.stage = .boundary ∧ u.samplesDone < u.samplesToDo ∧ u.pos.j ≠ 0 ∧
      decodeBytes .w (Memory.bytesAt u.source (u.blockAddr + 0x10) 4) = .ok (.nibw 0xE94FA50B, []) := by decide

theorem witness_StepRunsTheDecodedInstruction_nibble :
    let s := { inCall .nibble ⟨0, 0, 7⟩ [] with nibWord := 0x89ABCDEF }
    s.tape = [] ∧ s.status = .busy ∧ s.stage = .nibble ∧ s.samplesDone < s.samplesToDo ∧
      Instr.sample 8 = .sample (s.nibWord.extractLsb' (4 * s.pos.k.val) 4) := by decide

/-- One word of every width the table has. -/
theorem witness_PlacedInstructionRunsNext :
    (decodeTableWord 96 0).isSome ∧ (decodeTableWord 32 0xFFFFFFFF).isSome ∧ (decodeTableWord 8 0xFF).isSome ∧
      (decodeTableWord 4 0xF).isSome ∧ (decodeTableWord 0 0).isSome := by decide

/-- Both ways the host is silent: an empty tape, and an entry that says nothing happens. -/
theorem witness_hostSilent :
    State.reset.hostSilent ∧ { State.reset with tape := [none, some .reset] }.hostSilent :=
  ⟨.inl rfl, .inr ⟨_, rfl⟩⟩

theorem witness_NothingChangesBetweenCalls : State.reset.hostSilent ∧ State.reset.status ≠ .busy :=
  ⟨.inl rfl, by decide⟩

/-- The three places where the loop stops; the quota just met. -/
theorem witness_StopEndsTheCallInDone :
    (inCall .exhausted ⟨7, 3, 7⟩ []).stage = .exhausted ∧
    (let s := { inCall .boundary ⟨0, 1, 0⟩ [] with samplesToDo := 8, samplesDone := 8 }
     s.tape = [] ∧ s.status = .busy ∧ s.stage = .boundary ∧ s.samplesToDo ≤ s.samplesDone) ∧
    (let s := { inCall .nibble ⟨0, 0, 1⟩ [] with samplesToDo := 1, samplesDone := 1 }
     s.tape = [] ∧ s.status = .busy ∧ s.stage = .nibble ∧ s.samplesToDo ≤ s.samplesDone) := by decide

theorem witness_EveryCallEnds :
    (inCall .header ⟨0, 0, 0⟩ headerM).status = .busy ∧ (inCall .header ⟨0, 0, 0⟩ headerM).tape = [] := by decide

/-- A state inside a call meets the invariant, and it steps. -/
theorem witness_InvariantKeptByEveryStep :
    (inCall .header ⟨0, 0, 0⟩ headerM).Inv ∧ ∃ t, step (inCall .header ⟨0, 0, 0⟩ headerM) = .next t := by
  refine ⟨⟨by decide, by decide, by decide, by decide, by decide, by decide, by decide, by decide, fun _ => ?_⟩, ?_⟩
  · refine ⟨by decide, by decide, by decide, by decide, by decide, by decide, by decide, by decide, ⟨rfl, rfl⟩, ?_, ?_⟩
    · intro h
      exact absurd rfl h
    · rintro (h | h | ⟨h, _⟩) <;> exact absurd h (by decide)
  · exact ⟨_, rfl⟩

/-- Accepted, also in `DONE` and in `FAULT`. -/
theorem witness_AcceptedCommandStartsTheCall :
    State.reset.accepts ⟨0x800, 0, 1, 1000, 4⟩ ∧ { State.reset with status := .done }.accepts ⟨1, 5, 2, 0, 0⟩ ∧
      { State.reset with status := .fault }.accepts ⟨0, 0, 1, 4294967296, 1⟩ := by
  unfold State.accepts
  decide

/-- At the edge of the finite widths: last byte 116 + 0x8b = 255, last slot 253 + 2 = 255. -/
theorem witness_AcceptedCommandStartsTheCall_widths : narrow.accepts ⟨116, 253, 2, 254, 256⟩ := by
  unfold State.accepts
  decide

theorem witness_RefusedCommandChangesNothing_busy : (inCall .header ⟨0, 0, 0⟩ []).status = .busy := by decide

theorem witness_RefusedCommandChangesNothing_spacing : (⟨0, 0, 0, 0, 1⟩ : Command).spacing = 0 := by decide

/-- One past each width: base 256, count 512, spacing 16. -/
theorem witness_RefusedCommandChangesNothing_operand :
    operandsFit narrow.widths ⟨256, 0, 1, 0, 1⟩ = false ∧ operandsFit narrow.widths ⟨0, 0, 1, 0, 512⟩ = false ∧
      operandsFit narrow.widths ⟨0, 0, 16, 0, 1⟩ = false := by decide

/-- One past the last address and the last slot. -/
theorem witness_RefusedCommandChangesNothing_range :
    fitsWidth narrow.widths.addrW (117 + 0x8c * (0 / 256) + 0x8b) = false ∧
      fitsWidth narrow.widths.slotW (254 + (min 256 (256 - 254 % 256) - 1) * 2) = false := by decide

/-- The busy clause of the reply, met by a state in a call. -/
theorem witness_ReplyTellsWhetherAccepted : (inCall .nibble ⟨0, 0, 0⟩ []).status = .busy := by decide

/-- Two decoders with different pasts. -/
theorem witness_AcceptedCommandForgetsThePast :
    State.reset.accepts ⟨0, 0, 1, 0, 1⟩ ∧ { State.reset with status := .done, hist1 := 7, outSlot := 9 }.accepts ⟨0, 0, 1, 0, 1⟩ := by
  unfold State.accepts
  decide

/-- 95_test_vectors.md P4, call B both ways. -/
theorem witness_TwoNamesOfABlockRunAlike :
    State.reset.accepts ⟨0x40, 6, 1, 256 * 1 + 0, 6⟩ ∧ State.reset.accepts ⟨0x40 + 0x8c * 1, 6, 1, 0, 6⟩ ∧
      State.reset.accepts ⟨0, 0, 1, 256 * 2 + 255, 1⟩ ∧ State.reset.accepts ⟨0 + 0x8c * 2, 0, 1, 255, 1⟩ := by
  unfold State.accepts
  decide

theorem witness_CommandFrame :
    (∃ t, exec (⟨0, 0, 1, 0, 1⟩ : Command).instr State.reset = .next t) ∧ ¬ State.reset.accepts ⟨0, 0, 0, 0, 1⟩ :=
  ⟨⟨_, rfl⟩, by unfold State.accepts; decide⟩

theorem witness_HeaderReadsOrFaults :
    let s := inCall .header ⟨0, 0, 0⟩ headerM
    s.tape = [] ∧ s.status = .busy ∧ s.stage = .header ∧ Memory.readable s.source (s.blockAddr + 0x00) 4 = true ∧
      Memory.readable s.source (s.blockAddr + 0x04) 4 = true ∧ Memory.readable s.source (s.blockAddr + 0x08) 2 = true ∧
      Memory.readable s.source (s.blockAddr + 0x0a) 2 = true := by decide

/-- The first read fails; the last read fails after the other three. -/
theorem witness_HeaderReadsOrFaults_fault :
    let s := inCall .header ⟨0, 0, 0⟩ []
    let u := inCall .header ⟨0, 0, 0⟩ (headerM.take 11)
    [(s.blockAddr + 0x00, 4), (s.blockAddr + 0x04, 4), (s.blockAddr + 0x08, 2), (s.blockAddr + 0x0a, 2)] =
        [] ++ (0, 4) :: [(4, 4), (8, 2), (10, 2)] ∧ Memory.readable s.source 0 4 = false ∧
    [(u.blockAddr + 0x00, 4), (u.blockAddr + 0x04, 4), (u.blockAddr + 0x08, 2), (u.blockAddr + 0x0a, 2)] =
        [(0, 4), (4, 4), (8, 2)] ++ (10, 2) :: [] ∧ Memory.readable u.source 10 2 = false ∧
      ∀ r ∈ [(0, 4), (4, 4), (8, 2)], Memory.readable u.source r.1 r.2 = true := by decide

theorem witness_HdrCompletes :
    let s := inCall .header ⟨0, 0, 0⟩ headerM
    Memory.readable s.source (s.blockAddr + 0x00) 4 = true ∧ Memory.readable s.source (s.blockAddr + 0x04) 4 = true ∧
      Memory.readable s.source (s.blockAddr + 0x08) 2 = true ∧ Memory.readable s.source (s.blockAddr + 0x0a) 2 = true := by
  decide

theorem witness_DescriptorSelectsPairAndShift :
    let s := { inCall .boundary ⟨7, 0, 0⟩ [] with coefBits := 0xF9643210, shiftBits := 0x2FCA8530 }
    s.tape = [] ∧ s.status = .busy ∧ s.stage = .boundary ∧ s.samplesDone < s.samplesToDo ∧ s.pos.j = 0 := by decide

/-- A state that holds what a descriptor loads. -/
theorem witness_ModesGiveTheirSample :
    ∃ t, exec (.mode2 5) State.reset = .next t ∧ t.coef1 = t.coef1 ∧ t.coef2 = t.coef2 ∧ t.shift = t.shift :=
  ⟨_, rfl, rfl, rfl, rfl⟩

theorem witness_DescriptorFrame : (Instr.mode1A15 2).format = .d ∧ ∃ t, exec (.mode1A15 2) State.reset = .next t :=
  ⟨by decide, _, rfl⟩

/-- The first word of a subframe and its last, readable and not. -/
theorem witness_NibbleWordReadsOrFaults :
    let s := inCall .fetch ⟨0, 0, 0⟩ (headerM ++ wordsM)
    let u := inCall .boundary ⟨7, 3, 0⟩ (headerM ++ wordsM)
    s.tape = [] ∧ s.status = .busy ∧ s.stage = .fetch ∧ Memory.readable s.source 0x0c 4 = true ∧
    u.tape = [] ∧ u.status = .busy ∧ u.stage = .boundary ∧ u.samplesDone < u.samplesToDo ∧ u.pos.j ≠ 0 ∧
      0x88 = u.blockAddr + 0x0c + 0x10 * u.pos.i.val + 0x04 * u.pos.j.val ∧ Memory.readable u.source 0x88 4 = false := by
  decide

theorem witness_NibbleWordReadsOrFaults_quota :
    let s := { inCall .boundary ⟨0, 1, 0⟩ [] with samplesToDo := 8, samplesDone := 8 }
    s.tape = [] ∧ s.status = .busy ∧ s.stage = .boundary ∧ s.samplesToDo ≤ s.samplesDone := by decide

theorem witness_NibwCompletes :
    let s := inCall .fetch ⟨0, 1, 0⟩ (headerM ++ wordsM)
    Memory.readable s.source (s.blockAddr + 0x0c + 0x10 * s.pos.i.val + 0x04 * s.pos.j.val) 4 = true := by decide

/-- Reads that succeed, for both instructions. -/
theorem witness_HeaderAndNibbleWordFrame :
    let s := inCall .header ⟨0, 0, 0⟩ (headerM ++ wordsM)
    (∀ r ∈ s.headerReads, Memory.readable s.source r.1 r.2 = true) ∧
      (∀ r ∈ s.nibbleReads, Memory.readable s.source r.1 r.2 = true) := by decide

/-- A slot outside the window of a call, and a read that fails in it. -/
theorem witness_HeaderAndNibbleWordFrame_fault :
    let s := inCall .fetch ⟨0, 0, 0⟩ headerM
    (∃ t, exec (.nibw 0) s = .next t) ∧ ∀ m < min s.samplesToDo (256 - s.intraOffset), 256 ≠ s.outSlot + m * s.channelSpacing := by
  refine ⟨⟨_, rfl⟩, fun m hm => ?_⟩
  have : m < 256 := Nat.lt_of_lt_of_le hm (Nat.min_le_left 256 _)
  show 256 ≠ 0 + m * 1
  omega

/-- The history at both ends of its range, entry 2, shift factor 15. -/
theorem witness_NoIntermediateOverflows :
    let s := atSample (-32768) 32767 122 60 7
    histInRange s.hist1 ∧ histInRange s.hist2 ∧ (s.coef1, s.coef2) = coefPair 2 ∧ s.shift = effectiveShift 15 := by
  unfold histInRange
  decide

theorem witness_SampleClosedForm :
    (atSample 0 0 122 60 7).shift.toNat = 22 - (15 : Nibble).toNat ∧ (atSample 0 0 122 60 22).shift.toNat = 22 - (0 : Nibble).toNat := by
  decide

/-- Both signs; -65 is no multiple of 64 (R230). -/
theorem witness_ShiftRoundsDown : (0 : Int) ≤ 63 ∧ (-65 : Int) < 0 ∧ (-65 : Int) % 2 ^ 6 ≠ 0 := by decide

/-- Written at the offset itself with one sample left; discarded one before it, and with the quota met. -/
theorem witness_SampleCompletes :
    let s := { inCall .nibble ⟨3, 0, 4⟩ [] with intraOffset := 100, samplesToDo := 1 }
    let u := { inCall .nibble ⟨3, 0, 3⟩ [] with intraOffset := 100, samplesToDo := 1 }
    let w := { inCall .nibble ⟨3, 0, 5⟩ [] with intraOffset := 100, samplesToDo := 1, samplesDone := 1 }
    (s.intraOffset ≤ s.g ∧ s.samplesDone < s.samplesToDo) ∧ ¬ (u.intraOffset ≤ u.g ∧ u.samplesDone < u.samplesToDo) ∧
      ¬ (w.intraOffset ≤ w.g ∧ w.samplesDone < w.samplesToDo) := by decide

theorem witness_SampleCompletes_step :
    let s := { inCall .nibble ⟨0, 0, 7⟩ [] with nibWord := 0x89ABCDEF }
    s.tape = [] ∧ s.status = .busy ∧ s.stage = .nibble ∧ s.samplesDone < s.samplesToDo ∧
      (8 : Nibble) = s.nibWord.extractLsb' (4 * s.pos.k.val) 4 := by decide

/-- A step that takes a sample; a state whose write test fails. -/
theorem witness_SampleFrame :
    (∃ t, exec (.sample 3) (atSample 0 0 0 0 22) = .next t) ∧ { atSample 0 0 0 0 22 with intraOffset := 1 }.writes = false :=
  ⟨⟨_, rfl⟩, by decide⟩

/-- The positions where the clauses meet. -/
theorem witness_SequencerCountsThroughTheBlock :
    (inCall .nibble ⟨7, 3, 6⟩ []).pos ≠ ⟨7, 3, 7⟩ ∧ (inCall .nibble ⟨7, 3, 6⟩ []).pos.k ≠ 7 ∧
      (inCall .nibble ⟨7, 2, 7⟩ []).pos ≠ ⟨7, 3, 7⟩ ∧ (inCall .nibble ⟨7, 2, 7⟩ []).pos.k = 7 ∧
      (inCall .nibble ⟨7, 3, 7⟩ []).pos = ⟨7, 3, 7⟩ := by decide

/-- A fixed point and a value that is none. -/
theorem witness_ModeOneFixedPoints :
    (let s := atSample (-15) 0 60 0 22
     histInRange s.hist1 ∧ s.coef1 = 60 ∧ s.coef2 = 0 ∧ s.shift = 22 ∧ -15 ≤ s.hist1.toInt ∧ s.hist1.toInt ≤ 0) ∧
    (let s := atSample (-16) 0 60 0 22
     histInRange s.hist1 ∧ s.coef1 = 60 ∧ s.coef2 = 0 ∧ s.shift = 22 ∧ ¬ (-15 ≤ s.hist1.toInt)) := by
  unfold histInRange
  decide

/-- A read that fails in a call of one sample: a slot outside its window and the one inside. -/
theorem witness_ReadFaultEndsTheCall :
    let s := { inCall .fetch ⟨0, 0, 0⟩ [] with samplesToDo := 1 }
    Memory.readable s.source 0x0c 4 = false ∧ 0 < min s.samplesToDo (256 - s.intraOffset) ∧
      (∀ m < min s.samplesToDo (256 - s.intraOffset), 1 ≠ s.outSlot + m * s.channelSpacing) ∧
      ((s.logRead 0x0c 4).takeReadFault 0x0c 4).tape = [] := by decide

theorem witness_ResetAbandonsTheCall :
    { inCall .fetch ⟨0, 0, 0⟩ [] with tape := [some .reset] }.tape = some .reset :: [] ∧
      { inCall .fetch ⟨0, 0, 0⟩ [] with tape := [some .reset] }.status = .busy ∧
      { State.reset with tape := [some .reset] }.status ≠ .busy := by decide

theorem witness_SourceNeverWrittenOutputNeverRead :
    let s := inCall .header ⟨0, 0, 0⟩ headerM
    (∃ t, step s = .next t) ∧ (∀ a b rest, s.tape ≠ some (.storeByte a b) :: rest) ∧
      (∀ a rest, s.tape ≠ some (.dropByte a) :: rest) :=
  ⟨⟨_, rfl⟩, fun _ _ _ h => (List.cons_ne_nil _ _ h.symm).elim, fun _ _ h => (List.cons_ne_nil _ _ h.symm).elim⟩

theorem witness_ReadsStayInsideTheBlock : ∃ t, step (inCall .header ⟨0, 0, 0⟩ headerM) = .next t := ⟨_, rfl⟩

/-- The header there, and not. -/
theorem witness_ZeroQuotaReadsTheHeaderOnly :
    State.reset.accepts ⟨0, 0, 1, 0, 0⟩ ∧ State.reset.tape = [] ∧
      Memory.readable (Memory.writeBytes [] 0 headerM) 0 12 = true ∧ Memory.readable State.reset.source 0 12 = false := by
  unfold State.accepts
  decide

/-- A source that holds a block can supply the reads of a call for the whole block, and for its last sample. -/
theorem block_readable (m : List Host.Cell) (h : Memory.readable m 0 140 = true) :
    callReadable m 0 0 256 ∧ callReadable m 0 255 1 := by
  have h256 : 0x0c + 4 * callWords 0 256 = 140 := by decide
  have h255 : 0x0c + 4 * callWords 255 1 = 140 := by decide
  constructor <;> unfold callReadable
  · rw [h256]
    exact h
  · rw [h255]
    exact h

/-- The reset state with a source. -/
def withSource (m : List Host.Cell) : State := { State.reset with source := m }

theorem source_withSource (m : List Host.Cell) : (withSource m).source = m := rfl

/-- A whole block, and its last sample alone. -/
theorem witness_CallWritesItsWindow :
    (withSource zeroBlock).accepts ⟨0, 0, 1, 0, 256⟩ ∧ (withSource zeroBlock).accepts ⟨0, 1, 3, 255, 1⟩ ∧
      (withSource zeroBlock).tape = [] ∧ (withSource zeroBlock).source = zeroBlock ∧
      callReadable zeroBlock 0 0 256 ∧ callReadable zeroBlock 0 255 1 := by
  refine ⟨?_, ?_, rfl, source_withSource zeroBlock, block_readable zeroBlock ?_⟩
  · unfold State.accepts
    decide
  · unfold State.accepts
    decide
  · have := Memory.readable_writeBytes (List.replicate 140 0) [] 0
    rw [List.length_replicate] at this
    exact this

/-- S2 of 95_test_vectors.md: a whole block as [0, 100) and [100, 256). -/
theorem witness_SplittingARangeGivesTheSameSlots :
    (1 : Nat) ≤ 156 ∧ 0 % 256 + 100 + 156 ≤ 256 ∧ (withSource zeroBlock).tape = [] ∧
      (withSource zeroBlock).accepts ⟨0, 0, 1, 0, 100 + 156⟩ ∧ (withSource zeroBlock).accepts ⟨0, 0, 1, 0, 100⟩ ∧
      (withSource zeroBlock).accepts ⟨0, 0 + 100 * 1, 1, 0 + 100, 156⟩ ∧ Memory.readable zeroBlock 0 0x8c = true := by
  refine ⟨by decide, by decide, rfl, ?_, ?_, ?_, ?_⟩
  · unfold State.accepts
    decide
  · unfold State.accepts
    decide
  · unfold State.accepts
    decide
  · have := Memory.readable_writeBytes (List.replicate 140 0) [] 0
    rw [List.length_replicate] at this
    exact this

/-- A source that ends after the words needed; and quota 0, which needs none. -/
theorem witness_CallMakesTheseReads :
    let s := { State.reset with source := Memory.writeBytes [] 0 (headerM ++ wordsM) }
    s.accepts ⟨0, 0, 1, 0, 16⟩ ∧ s.tape = [] ∧ callReadable s.source 0 0 16 ∧ s.accepts ⟨0, 0, 1, 0, 0⟩ ∧
      callReadable s.source 0 0 0 := by
  unfold State.accepts callReadable
  decide

/-- A range of two blocks: a first command and one that follows it. -/
theorem witness_RangeIsSplitAtBlocks :
    decodeRange 0x40 0 1 250 12 = [] ++ ⟨0x40, 0, 1, 250, 6⟩ :: ⟨0x40, 6, 1, 256, 6⟩ :: [] := by decide

/-- Accepted: the last sample of a block, and the first of the next. -/
theorem witness_LocateHoldsThroughTheCall :
    State.reset.accepts ⟨0x40, 0, 1, 255, 1⟩ ∧ State.reset.accepts ⟨0x40, 0, 1, 256, 1⟩ ∧ State.reset.tape = [] ∧
      (State.reset.startCall ⟨0x40, 0, 1, 256, 1⟩).status = .busy := by
  unfold State.accepts
  decide

/-- The last round of a range, one that fills its block, and one with more to come. -/
theorem witness_RangeLoopStopsAtAFault :
    0 < 6 ∧ 6 = min 6 (256 - 256 % 256) ∧ 0 < 256 ∧ 256 = min 256 (256 - 0 % 256) ∧
      0 < 12 ∧ 6 = min 12 (256 - 250 % 256) ∧ 6 < 12 := by decide

/-- A round that ends in `FAULT` (the source is empty) and one that does not (a refused command, also one in a call's way). -/
theorem witness_RangeLoopStopsAtAFault_status :
    (next? (Host.Core.run Sys2Proof.core 1 (State.reset.startCall ⟨0x40, 0, 1, 250, 6⟩))).map (fun u => u.status) =
        some .fault ∧
      (next? (exec (.decode 0x40 0 0 250 6) State.reset)).map (fun u => u.status) = some .idle := by decide

/-- Two decoders with different pasts, over an empty source and over a whole block. -/
theorem witness_OutcomeDependsOnOperandsAndBytesOnly :
    let other := { State.reset with status := .fault, hist1 := 7, outSlot := 9, draws := 5, readLog := [(0, 4)] }
    State.reset.accepts ⟨0, 0, 1, 0, 1⟩ ∧ other.accepts ⟨0, 0, 1, 0, 1⟩ ∧ State.reset.source = other.source ∧
      State.reset.tape = [] ∧ other.tape = [] ∧ (withSource zeroBlock).accepts ⟨0, 0, 1, 0, 1⟩ := by
  unfold State.accepts
  decide

/-- Its clauses: a call over a header alone that ends in `DONE` (quota 0), one that ends in `FAULT`, a slot outside the window. -/
theorem witness_OutcomeDependsOnOperandsAndBytesOnly_ends :
    let s := withSource (Memory.writeBytes [] 0 headerM)
    s.accepts ⟨0, 0, 1, 0, 0⟩ ∧ s.accepts ⟨0, 0, 1, 0, 1⟩ ∧
      (next? (Host.Core.run Sys2Proof.core 2 (s.startCall ⟨0, 0, 1, 0, 0⟩))).map (fun u => u.status) = some .done ∧
      (next? (Host.Core.run Sys2Proof.core 1 (State.reset.startCall ⟨0, 0, 1, 0, 1⟩))).map (fun u => u.status) =
        some .fault ∧
      ∀ m < min 1 (256 - 0 % 256), 1 ≠ 0 + m * 1 := by
  unfold State.accepts
  decide

/-- A DECODE, a failed read and a SAMPLE that leaves `STATUS`; a write at the first slot. -/
theorem witness_EndOfCallIsTheOnlySynchronisation :
    (∃ t, exec (.decode 0 0 1 0 1) State.reset = .next t ∧ t.status = .busy) ∧
      (∃ t, exec (.nibw 0) (inCall .fetch ⟨0, 0, 0⟩ []) = .next t ∧ t.status = .fault) ∧
      (∃ t, exec (.sample 3) (atSample 0 0 0 0 22) = .next t ∧ t.status = .busy) ∧ (atSample 0 0 0 0 22).writes = true :=
  ⟨⟨_, rfl, rfl⟩, ⟨_, rfl, rfl⟩, ⟨_, rfl, rfl⟩, by decide⟩

/-- A step that ends a call in `DONE`, and a state after one. -/
theorem witness_EndOfCallIsTheOnlySynchronisation_done :
    let s := { inCall .nibble ⟨0, 0, 1⟩ [] with samplesToDo := 1, samplesDone := 1 }
    s.tape = [] ∧ s.callOver = false ∧ step s = .next s.finish ∧ s.finish.status = .done ∧ s.finish.tape = [] ∧
      s.finish.callOver = true :=
  ⟨rfl, by decide, rfl, rfl, rfl, by decide⟩

end Sys2Proof.Tests
end

section
/-! PROOFS. The scope (00_scope.md): what the command interface answers to a `DECODE`. -/

namespace Sys2Proof.Machine

@[simp] theorem State.refuse_reply (s : State) (r : RefuseReason) : (s.refuse r).reply = .refused r := rfl

/-- R121: no command is accepted during a call. -/
theorem State.not_accepts_of_busy {s : State} (hb : s.status = .busy) (c : Command) : ¬ s.accepts c :=
  fun ⟨hnb, _⟩ => hnb hb

/-- Log 25: `BUSY` is the first test, whatever else is wrong with the command. -/
theorem State.refusal_of_busy {s : State} (hb : s.status = .busy) (c : Command) : s.refusal c = some .whileBusy :=
  if_pos hb

/-- Settles O18: the two answers of `DECODE`. The start of a call writes `accepted` to the port and needs `STATUS` not `BUSY`; a
refusal writes its reason, which is `whileBusy` when `STATUS` is `BUSY`. -/
theorem replyTellsWhetherAccepted : Obligations.ReplyTellsWhetherAccepted := by
  intro s c
  by_cases hacc : s.accepts c
  · refine ⟨s.startCall c, exec_decode_accepted hacc, by simp [hacc], fun hb => ?_⟩
    exact absurd hacc (s.not_accepts_of_busy hb c)
  · obtain ⟨r, hr, hexec⟩ := exec_decode_refused hacc
    refine ⟨s.refuse r, hexec, by simp [hacc], fun hb => ?_⟩
    have hreason : r = .whileBusy := Option.some.inj (hr.symm.trans (s.refusal_of_busy hb c))
    rw [State.refuse_reply, hreason]

end Sys2Proof.Machine
end

section
/-! PROOFS. The state (10_state.md): the position, what each instruction leaves unchanged, the start of a call, and the time
between calls. -/

namespace Sys2Proof.Machine

/-! The position (R29, R250) -/

theorem SeqPos.index_lt (p : SeqPos) : p.index < 256 := by
  unfold SeqPos.index
  omega

/-- Everything the sequencer does after a nibble (R29, R250): inside a word, at a word's end, and after the block's last
nibble. -/
theorem SeqPos.next_cases (p : SeqPos) :
    (p.k ≠ 7 ∧ p.nextStage = .nibble ∧ p.next.index = p.index + 1 ∧ p.next.i = p.i) ∨
    (p.k = 7 ∧ p ≠ ⟨7, 3, 7⟩ ∧ p.nextStage = .boundary ∧ p.next.index = p.index + 1 ∧ p.next.k = 0 ∧
      (p.next.j ≠ 0 → p.next.i = p.i)) ∨
    (p = ⟨7, 3, 7⟩ ∧ p.nextStage = .exhausted ∧ p.next = p) := by
  obtain ⟨i, j, k⟩ := p
  by_cases hk : k.val < 7
  · have hnext : SeqPos.next ⟨i, j, k⟩ = ⟨i, j, k + 1⟩ := by simp [SeqPos.next, hk]
    refine .inl ⟨show k ≠ 7 by omega, by simp [SeqPos.nextStage, hk], ?_, by rw [hnext]⟩
    simp only [hnext, SeqPos.index]
    omega
  · obtain rfl : k = 7 := by omega
    by_cases hj : j.val < 3
    · have hnext : SeqPos.next ⟨i, j, 7⟩ = ⟨i, j + 1, 0⟩ := by simp [SeqPos.next, hj]
      have hlast : SeqPos.mk i j 7 ≠ ⟨7, 3, 7⟩ := by
        rintro ⟨⟩
        exact absurd hj (by decide)
      refine .inr (.inl ⟨rfl, hlast, by simp [SeqPos.nextStage, hj], ?_, by rw [hnext], fun _ => by rw [hnext]⟩)
      simp only [hnext, SeqPos.index]
      omega
    · obtain rfl : j = 3 := by omega
      by_cases hi : i.val < 7
      · have hnext : SeqPos.next ⟨i, 3, 7⟩ = ⟨i + 1, 0, 0⟩ := by simp [SeqPos.next, hi]
        have hlast : SeqPos.mk i 3 7 ≠ ⟨7, 3, 7⟩ := by
          rintro ⟨⟩
          exact absurd hi (by decide)
        refine .inr (.inl ⟨rfl, hlast, by simp [SeqPos.nextStage, hi], ?_, by rw [hnext], fun hj0 => ?_⟩)
        · simp only [hnext, SeqPos.index]
          omega
        · rw [hnext] at hj0
          exact absurd rfl hj0
      · obtain rfl : i = 7 := by omega
        exact .inr (.inr ⟨rfl, rfl, rfl⟩)

/-- Settles O37, along the three cases of `SEQ <- next`. -/
theorem sequencerCountsThroughTheBlock : Obligations.SequencerCountsThroughTheBlock := by
  intro s n
  refine ⟨_, exec_sample s n, ?_⟩
  simp only [State.takeSample_pos, State.takeSample_stage]
  rcases s.pos.next_cases with ⟨hk, hstage, hindex, -⟩ | ⟨hk, hlast, hstage, hindex, hk0, -⟩ | ⟨hlast, hstage, -⟩
  · exact ⟨fun _ => ⟨hindex, fun _ => hstage, fun h => absurd h hk⟩, fun h => absurd (congrArg SeqPos.k h) hk⟩
  · exact ⟨fun _ => ⟨hindex, fun h => absurd hk h, fun _ => ⟨hstage, hk0⟩⟩, fun h => absurd h hlast⟩
  · exact ⟨fun h => absurd hlast h, fun _ => hstage⟩

/-! `SAMPLE` and the descriptors -/

/-- Settles O36: `SAMPLE` is one record update, and the one slot it can write is the next one. -/
theorem sampleFrame : Obligations.SampleFrame := by
  intro s t n h
  rw [exec_sample] at h
  obtain rfl := Host.Outcome.next.inj h
  refine ⟨by rw [State.takeSample_eq], fun a => by simp, fun k hk => ?_, fun hw k => by simp [hw]⟩
  rw [State.takeSample_outBuf]
  split
  · exact Memory.read_write_other _ _ hk
  · rfl

/-- R172: each of the sixteen descriptors begins a subframe. -/
theorem exec_format_d {i : Instr} (h : i.format = .d) (s : State) :
    ∃ coefIndex shiftFactor, exec i s = .next (beginSubframe coefIndex shiftFactor s) := by
  cases i with
  | decode | hdr | nibw | sample => cases h
  | _ => exact ⟨_, _, rfl⟩

/-- Settles O27: beginning a subframe is the update of these four fields. -/
theorem descriptorFrame : Obligations.DescriptorFrame := by
  intro i s t hd h
  obtain ⟨ci, sf, hexec⟩ := exec_format_d hd s
  obtain rfl := Host.Outcome.next.inj (hexec.symm.trans h)
  exact ⟨rfl, fun _ => rfl, fun _ => rfl⟩

/-! `HDR` and `NIBW` -/

/-- Everything an instruction that reads first can do when it answers a next state: all reads succeed and it runs on, or one
fails and `ReadFault` is taken. -/
theorem State.memReads_next {s t : State} {reads : List (Nat × Nat)} {load : State → State}
    (h : s.memReads reads (fun u => .next (load u)) = .next t) :
    ((∀ r ∈ reads, Memory.readable s.source r.1 r.2 = true) ∧ t = load (s.afterReads reads)) ∨
    ((¬ ∀ r ∈ reads, Memory.readable s.source r.1 r.2 = true) ∧
      ∃ made a n, t = (s.afterReads made).takeReadFault a n) := by
  rcases s.memReads_cases reads (fun u => .next (load u)) with
    ⟨hall, hrun⟩ | ⟨pre, a, n, post, hreads, -, hfail, hrun⟩
  · exact .inl ⟨hall, (Host.Outcome.next.inj (hrun.symm.trans h)).symm⟩
  · refine .inr ⟨fun hall => ?_, pre ++ [(a, n)], a, n, (Host.Outcome.next.inj (hrun.symm.trans h)).symm⟩
    have hread := hall (a, n) (by simp [hreads])
    rw [hfail] at hread
    cases hread

/-- The reads of the two instructions that read (R150, R200). -/
def State.readsOf (s : State) (i : Instr) : List (Nat × Nat) := if i.format = .h then s.headerReads else s.nibbleReads

/-- What the two instructions that read load once their reads succeeded (R150, R200). -/
def loadOperands (i : Instr) (s : State) : State :=
  match i with
  | .hdr coefBits shiftBits hist1 hist2 =>
    { s with coefBits := coefBits, shiftBits := shiftBits, hist1 := sext16 hist1, hist2 := sext16 hist2, stage := .boundary }
  | .nibw word => { s with nibWord := word, stage := .nibble }
  | _ => s

/-- `HDR` and `NIBW` make their reads, then load. -/
theorem exec_reads_then_loads {i : Instr} (h : i.format = .h ∨ i.format = .w) (s : State) :
    exec i s = s.memReads (s.readsOf i) (fun u => .next (loadOperands i u)) := by
  cases i with
  | hdr | nibw => rfl
  | _ => simp [Instr.format] at h

/-- Settles O30: what a successful load leaves, and what a failed read leaves. -/
theorem headerAndNibbleWordFrame : Obligations.HeaderAndNibbleWordFrame := by
  intro i s t hformat h
  rw [exec_reads_then_loads hformat] at h
  obtain ⟨-, rfl⟩ | ⟨hfail, made, a, n, rfl⟩ := State.memReads_next h
  · cases i with
    | hdr | nibw => simp [loadOperands, State.afterReads, Instr.format]
    | _ => simp [Instr.format] at hformat
  · exact ⟨rfl, rfl, rfl, rfl, rfl, rfl, rfl, rfl, rfl, rfl, rfl, rfl, rfl, rfl, rfl, fun _ => rfl,
      (s.afterReads made).takeReadFault_outside a n, fun hall => absurd hall hfail⟩

/-! Between calls, and the start of a call -/

/-- Settles O10: with the host silent the step is the decoder's turn, which waits between calls. -/
theorem nothingChangesBetweenCalls : Obligations.NothingChangesBetweenCalls := by
  intro s hsilent hidle
  rw [step_silent hsilent]
  exact decoderTurn_idle hidle

/-- Settles O41: the reset state's registers are literals, and unbounded widths fit every command. -/
theorem powerOnIsIdle : Obligations.PowerOnIsIdle := by
  refine ⟨rfl, rfl, rfl, ?_⟩
  unfold State.accepts
  decide

/-- Settles O16: the registers after `State.startCall`, with `LOCATE` in numbers. -/
theorem acceptedCommandStartsTheCall : Obligations.AcceptedCommandStartsTheCall := by
  intro s base out spacing first count hacc
  refine ⟨_, exec_decode_accepted hacc, ?_⟩
  simp [locateIndex, locateOffset, locateAddr, blockSamples, blockBytes]

/-- R20, R125: the start of a call keeps nothing of the old state but the memories, the reads, the host's side, the widths and the
count of free values. -/
theorem State.startCall_congr {s t : State} (c : Command) (hsource : s.source = t.source) (houtBuf : s.outBuf = t.outBuf)
    (hreadLog : s.readLog = t.readLog) (htape : s.tape = t.tape) (hwidths : s.widths = t.widths)
    (hdraws : s.draws = t.draws) : s.startCall c = t.startCall c := by
  simp only [State.startCall, State.freshResults, State.freshDatapath, hsource, houtBuf, hreadLog, htape, hwidths, hdraws]

/-- Settles O19: an accepted command is `State.startCall` in both states. -/
theorem acceptedCommandForgetsThePast : Obligations.AcceptedCommandForgetsThePast := by
  intro s t c hs ht hsource houtBuf hreadLog htape hwidths hdraws
  rw [exec_decode_accepted hs, exec_decode_accepted ht,
    State.startCall_congr c hsource houtBuf hreadLog htape hwidths hdraws]

end Sys2Proof.Machine
end

section
/-! PROOFS. The invariant of Safety.lean: it holds at reset, and every step keeps it, because each thing either agent's turn can
do keeps it. -/

namespace Sys2Proof.Machine

/-! The decoder's turn in a call -/

/-- In a call the decoder runs what stands next. -/
theorem decoderTurn_raw {s : State} {raw : Raw} (hb : s.status = .busy) (hup : s.upcoming = some raw) :
    decoderTurn s = exec (decodeRaw raw) s := by
  rw [decoderTurn_busy hb, hup]

/-- In a call the decoder stops where nothing stands next. -/
theorem decoderTurn_stop {s : State} (hb : s.status = .busy) (hup : s.upcoming = none) : decoderTurn s = .next s.finish := by
  rw [decoderTurn_busy hb, hup]

/-- The descriptor of subframe `I` begins it with the two latched fields (R96, R172). -/
theorem exec_descriptor_of (s : State) (i : Nat) :
    exec (decodeDescriptor (s.descriptor i)) s = .next (beginSubframe (s.coefIndex i) (s.shiftFactor i) s) := by
  rw [exec_descriptor, State.descriptor, descriptorBits, BitVec.extractLsb'_append_eq_right,
    BitVec.extractLsb'_append_eq_left]

/-- Everything the decoder's turn can be in a call (R250): the instruction that stands next, or the end of the call where the
block is exhausted or the quota is met at a stop test. -/
theorem decoderTurn_cases {s : State} (hb : s.status = .busy) :
    (s.stage = .header ∧ decoderTurn s = exec (decodeHeader s.headerBits) s) ∨
    (s.stage = .boundary ∧ s.quotaOpen = true ∧ s.pos.j = 0 ∧
      decoderTurn s = .next (beginSubframe (s.coefIndex s.pos.i.val) (s.shiftFactor s.pos.i.val) s)) ∨
    ((s.stage = .fetch ∨ (s.stage = .boundary ∧ s.quotaOpen = true ∧ s.pos.j ≠ 0)) ∧
      decoderTurn s = exec (.nibw s.wordBits) s) ∨
    (s.stage = .nibble ∧ s.quotaOpen = true ∧
      decoderTurn s = .next (s.takeSample (s.datapath s.currentNibble).clamped)) ∨
    ((s.stage = .exhausted ∨ ((s.stage = .boundary ∨ s.stage = .nibble) ∧ s.quotaOpen = false)) ∧
      decoderTurn s = .next s.finish) := by
  cases hstage : s.stage with
  | header =>
    have hup : s.upcoming = some (.h s.headerBits) := by simp [State.upcoming, hstage]
    exact .inl ⟨rfl, decoderTurn_raw hb hup⟩
  | boundary =>
    cases hq : s.quotaOpen with
    | true =>
      by_cases hj : s.pos.j = 0
      · have hup : s.upcoming = some (.d (s.descriptor s.pos.i.val)) := by simp [State.upcoming, hstage, hq, hj]
        exact .inr (.inl ⟨rfl, rfl, hj, (decoderTurn_raw hb hup).trans (exec_descriptor_of s _)⟩)
      · have hup : s.upcoming = some (.w s.wordBits) := by simp [State.upcoming, hstage, hq, hj]
        exact .inr (.inr (.inl ⟨.inr ⟨rfl, rfl, hj⟩, decoderTurn_raw hb hup⟩))
    | false =>
      have hup : s.upcoming = none := by simp [State.upcoming, hstage, hq]
      exact .inr (.inr (.inr (.inr ⟨.inr ⟨.inl rfl, rfl⟩, decoderTurn_stop hb hup⟩)))
  | fetch =>
    have hup : s.upcoming = some (.w s.wordBits) := by simp [State.upcoming, hstage]
    exact .inr (.inr (.inl ⟨.inl rfl, decoderTurn_raw hb hup⟩))
  | nibble =>
    cases hq : s.quotaOpen with
    | true =>
      have hup : s.upcoming = some (.n s.currentNibble) := by simp [State.upcoming, hstage, hq]
      exact .inr (.inr (.inr (.inl ⟨rfl, rfl, decoderTurn_raw hb hup⟩)))
    | false =>
      have hup : s.upcoming = none := by simp [State.upcoming, hstage, hq]
      exact .inr (.inr (.inr (.inr ⟨.inr ⟨.inr rfl, rfl⟩, decoderTurn_stop hb hup⟩)))
  | exhausted =>
    have hup : s.upcoming = none := by simp [State.upcoming, hstage]
    exact .inr (.inr (.inr (.inr ⟨.inl rfl, decoderTurn_stop hb hup⟩)))

/-! What `placeOk` says at each place -/

theorem State.placeOk_header {s : State} (h : s.stage = .header) : s.placeOk ↔ s.pos = ⟨0, 0, 0⟩ ∧ s.g = 0 := by
  simp [State.placeOk, h]

theorem State.placeOk_boundary {s : State} (h : s.stage = .boundary) : s.placeOk ↔ s.pos.k = 0 ∧ s.g = s.pos.index := by
  simp [State.placeOk, h]

theorem State.placeOk_fetch {s : State} (h : s.stage = .fetch) :
    s.placeOk ↔ s.pos.j = 0 ∧ s.pos.k = 0 ∧ s.g = s.pos.index := by
  simp [State.placeOk, h]

theorem State.placeOk_nibble {s : State} (h : s.stage = .nibble) : s.placeOk ↔ s.g = s.pos.index := by
  simp [State.placeOk, h]

theorem State.placeOk_exhausted {s : State} (h : s.stage = .exhausted) : s.placeOk ↔ s.pos = ⟨7, 3, 7⟩ ∧ s.g = 256 := by
  simp [State.placeOk, h]

/-! `SAMPLE` -/

/-- R23, R99: a header field is a 16-bit value. -/
theorem histInRange_sext16 (v : Half) : histInRange (sext16 v) := by
  have hlo := BitVec.le_toInt v
  have hhi := BitVec.toInt_lt (x := v)
  rw [histInRange, sext16, BitVec.toInt_signExtend_of_le (by decide)]
  omega

theorem histInRange_clamped (s : State) (n : Nibble) : histInRange (BitVec.ofInt 32 (s.datapath n).clamped) := by
  have hv : (BitVec.ofInt 32 (s.datapath n).clamped).toInt = (s.datapath n).clamped := toInt_ofInt_clamp16 _
  rw [histInRange, hv]
  exact clamp16_range _

/-- The place after a `SAMPLE` is the one `SEQ <- next` names, and `G` has counted the nibble. -/
theorem State.placeOk_takeSample {s : State} (hg : s.g = s.pos.index) (v : Int) : (s.takeSample v).placeOk := by
  have hg' : (s.takeSample v).g = s.pos.index + 1 := by rw [State.takeSample_g, hg]
  rcases s.pos.next_cases with ⟨-, hstage, hindex, -⟩ | ⟨-, -, hstage, hindex, hk, -⟩ | ⟨hlast, hstage, hnext⟩
  · rw [State.placeOk_nibble ((s.takeSample_stage v).trans hstage), State.takeSample_pos]
    exact hg'.trans hindex.symm
  · rw [State.placeOk_boundary ((s.takeSample_stage v).trans hstage), State.takeSample_pos]
    exact ⟨hk, hg'.trans hindex.symm⟩
  · rw [State.placeOk_exhausted ((s.takeSample_stage v).trans hstage), State.takeSample_pos, hnext]
    exact ⟨hlast, by rw [hg', hlast]; rfl⟩

/-- R26: where a descriptor still holds after a `SAMPLE`, it is that of the same subframe. -/
theorem State.next_i_of_subframeBegun {s : State} {v : Int} (h : (s.takeSample v).subframeBegun) :
    s.pos.next.i = s.pos.i := by
  rcases s.pos.next_cases with ⟨-, -, -, hi⟩ | ⟨-, -, hstage, -, -, hi⟩ | ⟨-, -, hnext⟩
  · exact hi
  · exact hi (by simpa [State.subframeBegun, hstage] using h)
  · rw [hnext]

/-- The write test (R252). -/
theorem State.writes_iff (s : State) : s.writes = true ↔ s.intraOffset ≤ s.g ∧ s.samplesDone < s.samplesToDo := by
  simp [State.writes, State.inWindow, State.quotaOpen]

/-- R254, R255: after a `SAMPLE` with the quota open `SAMPLES_DONE` still counts the window's samples, within the quota. -/
theorem State.samplesDone_takeSample {s : State} (hcall : s.CallInv) (hq : s.quotaOpen = true) (v : Int) :
    (s.takeSample v).samplesDone = (s.takeSample v).g - (s.takeSample v).intraOffset ∧
      (s.takeSample v).samplesDone ≤ (s.takeSample v).samplesToDo := by
  have hopen : s.samplesDone < s.samplesToDo := by simpa [State.quotaOpen] using hq
  have hdone := hcall.done
  simp only [State.takeSample_samplesDone, State.takeSample_g, State.takeSample_intraOffset, State.takeSample_samplesToDo,
    State.writes_iff]
  split <;> omega

theorem State.CallInv.takeSample {s : State} (h : s.CallInv) (hstage : s.stage = .nibble) (hq : s.quotaOpen = true)
    {v : Int} (hv : histInRange (BitVec.ofInt 32 v)) : (s.takeSample v).CallInv := by
  have hg := (State.placeOk_nibble hstage).mp h.place
  have hplace := State.placeOk_takeSample hg v
  have hsame := @State.next_i_of_subframeBegun s v
  obtain ⟨hdone, hquota⟩ := State.samplesDone_takeSample h hq v
  obtain ⟨hhist1, -⟩ := h.history (by simp [hstage])
  have hsubframe := h.subframe (.inr (.inl hstage))
  rw [State.takeSample_eq] at hplace hsame hdone hquota ⊢
  exact { h with
    done := hdone
    quota := hquota
    place := hplace
    history := fun _ => ⟨hv, hhist1⟩
    subframe := fun hbegun => by
      simp only [hsame hbegun]
      exact hsubframe }

theorem State.Inv.takeSample {s : State} (h : s.Inv) (hb : s.status = .busy) (hstage : s.stage = .nibble)
    (hq : s.quotaOpen = true) {v : Int} (hv : histInRange (BitVec.ofInt 32 v)) : (s.takeSample v).Inv := by
  have hcall := (h.call hb).takeSample hstage hq hv
  have hdone := hcall.done
  have hg := (State.placeOk_nibble hstage).mp (h.call hb).place
  have hlt := s.pos.index_lt
  have hg' : (s.takeSample v).g ≤ 256 := by
    rw [State.takeSample_g]
    omega
  have hbuf : Memory.wf (s.takeSample v).outBuf = true := by
    rw [State.takeSample_outBuf]
    split
    · exact Memory.wf_write _ _ _ h.outBuf_wf
    · exact h.outBuf_wf
  have hdone' : (s.takeSample v).samplesDone ≤ 256 := by omega
  rw [State.takeSample_eq] at hcall hg' hbuf hdone' ⊢
  exact { h with
    outBuf_wf := hbuf
    g := hg'
    samplesDone := hdone'
    call := fun _ => hcall }

/-! What the relations of a call say nothing of: the memories, the reads, the reply and the host's tape -/

theorem State.CallInv.keep {s : State} (h : s.CallInv) (source : List Host.Cell) (outBuf : List (Nat × Half))
    (readLog : List (Nat × Nat)) (reply : Reply) (tape : List (Option HostEvent)) :
    ({ s with source := source, outBuf := outBuf, readLog := readLog, reply := reply, tape := tape } : State).CallInv :=
  { h with }

theorem State.Inv.afterReads {s : State} (h : s.Inv) (reads : List (Nat × Nat)) : (s.afterReads reads).Inv :=
  { h with call := fun hb => (h.call hb).keep s.source s.outBuf (s.readLog ++ reads) s.reply s.tape }

theorem State.Inv.withTape {s : State} (h : s.Inv) (tape : List (Option HostEvent)) :
    ({ s with tape := tape } : State).Inv :=
  { h with call := fun hb => (h.call hb).keep s.source s.outBuf s.readLog s.reply tape }

/-! The decoder's turn -/

theorem State.Inv.takeReadFault {s : State} (h : s.Inv) (a n : Nat) : (s.takeReadFault a n).Inv :=
  { h with
    outBuf_wf := wf_freeSlots _ _ _ _ _ h.outBuf_wf
    shift := freshShift_range _
    call := nofun }

theorem State.Inv.finish {s : State} (h : s.Inv) : s.finish.Inv :=
  { h with
    written := h.samplesDone
    shift := freshShift_range _
    call := nofun }

theorem State.Inv.beginSubframe {s : State} (h : s.Inv) (hb : s.status = .busy) (hstage : s.stage = .boundary)
    (hj : s.pos.j = 0) :
    (beginSubframe (s.coefIndex s.pos.i.val) (s.shiftFactor s.pos.i.val) s).Inv := by
  have hcall := h.call hb
  have hplace := (State.placeOk_boundary hstage).mp hcall.place
  exact { h with
    shift := by
      rw [beginSubframe_shift, toNat_effectiveShift]
      omega
    call := fun _ => { hcall with
      place := ⟨hj, hplace⟩
      history := fun _ => hcall.history (by simp [hstage])
      subframe := fun _ => ⟨rfl, rfl⟩ } }

/-- An instruction that reads first keeps the invariant if its load does; its failed read ends the call. -/
theorem State.Inv.memReads {s t : State} (h : s.Inv) {reads : List (Nat × Nat)} {load : State → State}
    (hload : (load (s.afterReads reads)).Inv)
    (ht : s.memReads reads (fun u => .next (load u)) = .next t) : t.Inv := by
  obtain ⟨-, rfl⟩ | ⟨-, made, a, n, rfl⟩ := State.memReads_next ht
  · exact hload
  · exact (h.afterReads made).takeReadFault a n

theorem State.Inv.hdr {s t : State} (h : s.Inv) (hstage : s.stage = .header) {cb sb : Word} {h1 h2 : Half}
    (ht : exec (.hdr cb sb h1 h2) s = .next t) : t.Inv := by
  refine h.memReads (load := loadOperands (.hdr cb sb h1 h2)) { h with call := fun hb => ?_ } ht
  have hcall := h.call hb
  obtain ⟨hpos, hg⟩ := (State.placeOk_header hstage).mp hcall.place
  exact { hcall with
    place := ⟨congrArg SeqPos.k hpos, hg.trans (congrArg SeqPos.index hpos).symm⟩
    history := fun _ => ⟨histInRange_sext16 h1, histInRange_sext16 h2⟩
    subframe := fun hbegun => by
      simp [State.subframeBegun, loadOperands, State.afterReads, hpos] at hbegun }

theorem State.Inv.nibw {s t : State} (h : s.Inv) (hb : s.status = .busy)
    (hstage : s.stage = .fetch ∨ (s.stage = .boundary ∧ s.quotaOpen = true ∧ s.pos.j ≠ 0)) {w : Word}
    (ht : exec (.nibw w) s = .next t) : t.Inv := by
  have hcall := h.call hb
  have hfacts : s.g = s.pos.index ∧ s.stage ≠ .header ∧ s.subframeBegun := by
    rcases hstage with hstage | ⟨hstage, -, hj⟩
    · obtain ⟨-, -, hg⟩ := (State.placeOk_fetch hstage).mp hcall.place
      exact ⟨hg, by simp [hstage], .inl hstage⟩
    · obtain ⟨-, hg⟩ := (State.placeOk_boundary hstage).mp hcall.place
      exact ⟨hg, by simp [hstage], .inr (.inr ⟨hstage, hj⟩)⟩
  obtain ⟨hg, hnotHeader, hbegun⟩ := hfacts
  exact h.memReads (load := loadOperands (.nibw w))
    { h with call := fun _ => { hcall with
        place := hg
        history := fun _ => hcall.history hnotHeader
        subframe := fun _ => hcall.subframe hbegun } } ht

/-- The decoder's turn keeps the invariant, in a call by the cases of R250. -/
theorem State.Inv.decoderTurn {s t : State} (h : s.Inv) (ht : decoderTurn s = .next t) : t.Inv := by
  by_cases hb : s.status = .busy
  · rcases decoderTurn_cases hb with
      ⟨hstage, hturn⟩ | ⟨hstage, -, hj, hturn⟩ | ⟨hstage, hturn⟩ | ⟨hstage, hq, hturn⟩ | ⟨-, hturn⟩
    · exact h.hdr hstage (hturn.symm.trans ht)
    · obtain rfl := Host.Outcome.next.inj (hturn.symm.trans ht)
      exact h.beginSubframe hb hstage hj
    · exact h.nibw hb hstage (hturn.symm.trans ht)
    · obtain rfl := Host.Outcome.next.inj (hturn.symm.trans ht)
      exact h.takeSample hb hstage hq (histInRange_clamped s _)
    · obtain rfl := Host.Outcome.next.inj (hturn.symm.trans ht)
      exact h.finish
  · obtain rfl := Host.Outcome.next.inj ((decoderTurn_idle hb).symm.trans ht)
    exact h

/-! The host's turn -/

/-- R141 to R143, R341: a call starts with the relations of `CallInv` in force. -/
theorem State.Inv.startCall {s : State} (h : s.Inv) {c : Command} (hacc : s.accepts c) : (s.startCall c).Inv := by
  obtain ⟨-, hspacing, hoperands, hblock, hslots⟩ := hacc
  exact {
    source_wf := h.source_wf
    outBuf_wf := h.outBuf_wf
    written := by
      change Config.freeNat s.draws % 257 ≤ 256
      omega
    offset := Nat.mod_lt _ (by decide)
    spacing := hspacing
    shift := freshShift_range _
    g := Nat.zero_le _
    samplesDone := Nat.zero_le _
    call := fun _ => {
      index := rfl
      offset := rfl
      addr := rfl
      operands := hoperands
      block := hblock
      slots := hslots
      done := (Nat.zero_sub _).symm
      quota := Nat.zero_le _
      place := ⟨rfl, rfl⟩
      history := fun hstage => absurd rfl hstage
      subframe := fun hbegun => by simp [State.subframeBegun] at hbegun } }

theorem State.Inv.command {s t : State} (h : s.Inv) {c : Command} (ht : exec c.instr s = .next t) : t.Inv := by
  by_cases hacc : s.accepts c
  · obtain rfl := Host.Outcome.next.inj ((exec_decode_accepted hacc).symm.trans ht)
    exact h.startCall hacc
  · obtain ⟨r, -, hexec⟩ := exec_decode_refused hacc
    obtain rfl := Host.Outcome.next.inj (hexec.symm.trans ht)
    exact { h with call := fun hb => (h.call hb).keep s.source s.outBuf s.readLog (.refused r) s.tape }

/-- R340: a reset leaves every bounded register within its bound. -/
theorem State.Inv.powerOn {s : State} (h : s.Inv) : s.powerOn.Inv := by
  have hbuf : Memory.wf s.powerOn.outBuf = true := by
    unfold State.powerOn
    split
    · exact wf_freeSlots _ _ _ _ _ h.outBuf_wf
    · exact h.outBuf_wf
  exact {
    source_wf := by rw [State.powerOn_source]; exact h.source_wf
    outBuf_wf := hbuf
    written := Nat.le_of_lt_succ (Nat.mod_lt _ (by decide))
    offset := Nat.mod_lt _ (by decide)
    spacing := Nat.le_add_right 1 _
    shift := freshShift_range _
    g := Nat.le_of_lt_succ (Nat.mod_lt _ (by decide))
    samplesDone := Nat.le_of_lt_succ (Nat.mod_lt _ (by decide))
    call := nofun }

/-- Each action of the host keeps the invariant. -/
theorem State.Inv.hostTurn {s t : State} (h : s.Inv) {ev : HostEvent} (ht : hostTurn ev s = .next t) : t.Inv := by
  cases ev with
  | command c => exact h.command ht
  | reset =>
    obtain rfl := Host.Outcome.next.inj ht
    exact h.powerOn
  | storeByte a b =>
    obtain rfl := Host.Outcome.next.inj ht
    exact { h with
      source_wf := Memory.wf_write _ _ _ h.source_wf
      call := fun hb => (h.call hb).keep _ s.outBuf s.readLog s.reply s.tape }
  | dropByte a =>
    obtain rfl := Host.Outcome.next.inj ht
    exact { h with
      source_wf := Memory.wf_erase _ _ h.source_wf
      call := fun hb => (h.call hb).keep _ s.outBuf s.readLog s.reply s.tape }
  | storeSlot k v =>
    obtain rfl := Host.Outcome.next.inj ht
    exact { h with
      outBuf_wf := Memory.wf_write _ _ _ h.outBuf_wf
      call := fun hb => (h.call hb).keep s.source _ s.readLog s.reply s.tape }

/-! Every step -/

/-- Everything a step can be: the host's turn, or the decoder's when the host is silent. -/
theorem step_cases (s : State) :
    (∃ ev rest, s.tape = some ev :: rest ∧ step s = hostTurn ev { s with tape := rest }) ∨
    (s.hostSilent ∧ step s = decoderTurn s.popped) := by
  match htape : s.tape with
  | some ev :: rest => exact .inl ⟨ev, rest, rfl, by simp only [step, htape]⟩
  | none :: rest => exact .inr ⟨.inr ⟨rest, htape⟩, step_silent (.inr ⟨rest, htape⟩)⟩
  | [] => exact .inr ⟨.inl htape, step_silent (.inl htape)⟩

/-- Settles O14: the invariant does not look at the tape, and both turns keep it. -/
theorem invariantKeptByEveryStep : Obligations.InvariantKeptByEveryStep := by
  intro s t h ht
  rcases step_cases s with ⟨ev, rest, -, hstep⟩ | ⟨-, hstep⟩
  · exact (h.withTape rest).hostTurn (hstep.symm.trans ht)
  · exact (h.withTape s.tape.tail).decoderTurn (hstep.symm.trans ht)

/-- Settles O15: no memory lists anything, every register is within its bound, and no call is in progress. -/
theorem invariantHoldsAtReset : Obligations.InvariantHoldsAtReset :=
  { source_wf := rfl
    outBuf_wf := rfl
    written := by decide
    offset := by decide
    spacing := by decide
    shift := by decide
    g := by decide
    samplesDone := by decide
    call := nofun }

end Sys2Proof.Machine
end

section
/-! PROOFS. Memory (20_memory.md), the encoding in bytes (R63, R64): raw words and instructions, bytes and raw words, and the place
of each nibble in the byte stream. -/

namespace Sys2Proof

/-! Instructions and raw words (R92, R94 to R98) -/

theorem descriptorBits_mod (s c : Nibble) : (descriptorBits s c).toNat % 16 = c.toNat := by
  have hlow := congrArg BitVec.toNat (BitVec.extractLsb'_append_eq_right (a := s) (b := c))
  simpa [descriptorBits] using hlow

theorem descriptorBits_high (s c : Nibble) : (descriptorBits s c).extractLsb' 4 4 = s :=
  BitVec.extractLsb'_append_eq_left

/-- A descriptor byte is made of its two fields (R96). -/
theorem descriptorBits_fields (d : BitVec 8) :
    descriptorBits (d.extractLsb' 4 4) (BitVec.ofNat 4 (d.toNat % 16)) = d := by
  have hlow : BitVec.ofNat 4 (d.toNat % 16) = d.extractLsb' 0 4 := BitVec.eq_of_toNat_eq (by simp)
  rw [hlow]
  exact BitVec.extractLsb'_append_extractLsb'

/-- R103: the encoder writes back the two fields a descriptor was decoded from. -/
theorem encodeRaw_decodeDescriptor (d : BitVec 8) : encodeRaw (decodeDescriptor d) = .d d := by
  have hfields := descriptorBits_fields d
  have hlt : d.toNat % 16 < 16 := Nat.mod_lt _ (by decide)
  unfold decodeDescriptor
  generalize d.toNat % 16 = c at hfields hlt
  match c, hlt with
  | 0, _ | 1, _ | 2, _ | 3, _ | 4, _ | 5, _ | 6, _ | 7, _ => exact congrArg Raw.d hfields
  | 8, _ | 9, _ | 10, _ | 11, _ | 12, _ | 13, _ | 14, _ | 15, _ => exact congrArg Raw.d hfields
  | c + 16, hlt => omega

/-- A header decodes to the four fields it is made of (R92). -/
theorem decodeHeader_append (cb sb : Word) (h1 h2 : Half) : decodeHeader (h2 ++ h1 ++ sb ++ cb) = .hdr cb sb h1 h2 := by
  rw [decodeHeader, Instr.hdr.injEq]
  refine ⟨BitVec.extractLsb'_append_eq_right, ?_, ?_, ?_⟩
  · exact (BitVec.extractLsb'_append_eq_of_le (by decide)).trans BitVec.extractLsb'_append_eq_right
  · exact (BitVec.extractLsb'_append_eq_of_le (by decide)).trans
      ((BitVec.extractLsb'_append_eq_of_le (by decide)).trans BitVec.extractLsb'_append_eq_right)
  · exact (BitVec.extractLsb'_append_eq_of_le (by decide)).trans
      ((BitVec.extractLsb'_append_eq_of_le (by decide)).trans BitVec.extractLsb'_append_eq_left)

/-- The four fields of a header make it up (R92). -/
theorem append_headerFields (h : BitVec 96) :
    h.extractLsb' 80 16 ++ h.extractLsb' 64 16 ++ h.extractLsb' 32 32 ++ h.extractLsb' 0 32 = h := by
  have hhist : h.extractLsb' 80 16 ++ h.extractLsb' 64 16 = h.extractLsb' 64 32 :=
    BitVec.extractLsb'_append_extractLsb'_eq_extractLsb' (start₁ := 64) (len₁ := 16) rfl
  have hshift : h.extractLsb' 64 32 ++ h.extractLsb' 32 32 = h.extractLsb' 32 64 :=
    BitVec.extractLsb'_append_extractLsb'_eq_extractLsb' (start₁ := 32) (len₁ := 32) rfl
  rw [hhist, hshift]
  exact BitVec.extractLsb'_append_extractLsb' (w := 64) (len := 32)

theorem decodeRaw_encodeRaw (i : Instr) : decodeRaw (encodeRaw i) = i := by
  cases i with
  | decode | nibw | sample => rfl
  | hdr cb sb h1 h2 => exact decodeHeader_append cb sb h1 h2
  | _ => simp [encodeRaw, decodeRaw, decodeDescriptor, descriptorBits_mod, descriptorBits_high]

theorem encodeRaw_decodeRaw (r : Raw) : encodeRaw (decodeRaw r) = r := by
  cases r with
  | cmd | w | n => rfl
  | h bits => exact congrArg Raw.h (append_headerFields bits)
  | d bits => exact encodeRaw_decodeDescriptor bits

theorem format_encodeRaw (i : Instr) : (encodeRaw i).format = i.format := by
  cases i <;> rfl

theorem format_decodeRaw (r : Raw) : (decodeRaw r).format = r.format := by
  rw [← format_encodeRaw, encodeRaw_decodeRaw]

/-! Raw words and bytes (R63, R105) -/

theorem length_bytesOfRaw (r : Raw) : (bytesOfRaw r).length = formatBytes r.format := by
  cases r <;> simp [bytesOfRaw, Raw.format, formatBytes]

theorem leNat_leBytes_toNat {n k : Nat} (bits : BitVec n) (h : 2 ^ n ≤ 256 ^ k) :
    leNat (leBytes k bits.toNat) = bits.toNat := by
  rw [leNat_leBytes, Nat.mod_eq_of_lt (Nat.lt_of_lt_of_le bits.isLt h)]

theorem leBytes_toNat_ofNat_leNat {n k : Nat} {bs : List Byte} (hlen : bs.length = k) (h : leNat bs < 2 ^ n) :
    leBytes k (BitVec.ofNat n (leNat bs)).toNat = bs := by
  rw [BitVec.toNat_ofNat, Nat.mod_eq_of_lt h, ← hlen, leBytes_leNat]

/-- The bytes of a raw word that has bits are read back as the word. -/
theorem rawOfBytes_bytesOfRaw {r : Raw} (h : r.format ≠ .cmd) : rawOfBytes r.format (bytesOfRaw r) = .ok r := by
  cases r with
  | cmd => exact absurd rfl h
  | h bits => simp [rawOfBytes, bytesOfRaw, Raw.format, leNat_leBytes_toNat (k := 12) bits (by decide)]
  | d bits => simp [rawOfBytes, bytesOfRaw, Raw.format, leNat_leBytes_toNat (k := 1) bits (by decide)]
  | w bits => simp [rawOfBytes, bytesOfRaw, Raw.format, leNat_leBytes_toNat (k := 4) bits (by decide)]
  | n bits => simp [rawOfBytes, bytesOfRaw, Raw.format, leNat_leBytes_toNat (k := 1) bits (by decide), bits.isLt]

/-- The other direction: the bytes a raw word was read from are the word's bytes. -/
theorem bytesOfRaw_of_rawOfBytes {f : Format} {bs : List Byte} {r : Raw} (hlen : bs.length = formatBytes f)
    (h : rawOfBytes f bs = .ok r) : r.format = f ∧ bytesOfRaw r = bs := by
  have hlt : leNat bs < 256 ^ formatBytes f := hlen ▸ leNat_lt bs
  cases f with
  | cmd => cases h
  | h | d | w =>
    cases h
    exact ⟨rfl, leBytes_toNat_ofNat_leNat hlen hlt⟩
  | n =>
    rw [rawOfBytes] at h
    split at h
    · next hnibble =>
      cases h
      exact ⟨rfl, leBytes_toNat_ofNat_leNat hlen hnibble⟩
    · cases h

/-! The place of a nibble in the byte stream (R64) -/

/-- Byte `k` of a little-endian value. -/
theorem leNat_div_mod (bs : List Byte) (k : Nat) : leNat bs / 256 ^ k % 256 = (bs.getD k 0).toNat := by
  induction bs generalizing k with
  | nil => simp [leNat]
  | cons b bs ih =>
    have hb := b.isLt
    cases k with
    | zero =>
      simp only [leNat, Nat.pow_zero, Nat.div_one, List.getD_cons_zero]
      omega
    | succ k =>
      have htail : (b.toNat + 256 * leNat bs) / 256 = leNat bs := by omega
      rw [leNat, Nat.pow_succ', ← Nat.div_div_eq_div_mul, htail, ih, List.getD_cons_succ]

theorem toNat_nibbleOf (w : Word) (i : Nat) : (nibbleOf w i).toNat = w.toNat / 16 ^ i % 16 := by
  rw [nibbleOf, BitVec.extractLsb'_toNat, Nat.shiftRight_eq_div_pow, Nat.pow_mul]

namespace Machine

theorem toNat_halfOf (b : Byte) (i : Nat) : (halfOf b i).toNat = b.toNat / 16 ^ (i % 2) % 16 := by
  rcases Nat.mod_two_eq_zero_or_one i with h | h <;>
    simp [halfOf, h, Nat.shiftRight_eq_div_pow]

theorem halfOf_mod (b : Byte) {i j : Nat} (h : i % 2 = j % 2) : halfOf b i = halfOf b j := by
  simp only [halfOf, h]

theorem Memory.getD_bytesAt (m : List Host.Cell) (a : Nat) {n k : Nat} (h : k < n) :
    (Memory.bytesAt m a n).getD k 0 = (Memory.read m (a + k)).getD 0 := by
  induction n generalizing a k with
  | zero => omega
  | succ n ih =>
    cases k with
    | zero => rfl
    | succ k =>
      rw [Memory.bytesAt, List.getD_cons_succ, ih (a + 1) (by omega), Nat.add_assoc, Nat.add_comm 1 k]

theorem Memory.value_lt (m : List Host.Cell) (a n : Nat) : Memory.value m a n < 256 ^ n := by
  have hlt := leNat_lt (Memory.bytesAt m a n)
  rwa [Memory.length_bytesAt] at hlt

/-- R64: nibble `i` of the word at `a` is a half of the byte at `a + i div 2`. -/
theorem nibbleOf_wordAt (m : List Host.Cell) (a : Nat) {i : Nat} (h : i < 8) :
    nibbleOf (BitVec.ofNat 32 (Memory.value m a 4)) i = halfOf ((Memory.read m (a + i / 2)).getD 0) i := by
  have hword : (BitVec.ofNat 32 (Memory.value m a 4)).toNat = Memory.value m a 4 :=
    Nat.mod_eq_of_lt (Memory.value_lt m a 4)
  have hbyte : Memory.value m a 4 / 256 ^ (i / 2) % 256 = ((Memory.read m (a + i / 2)).getD 0).toNat := by
    rw [Memory.value, leNat_div_mod, Memory.getD_bytesAt m a (by omega)]
  have hplace : 16 ^ i = 256 ^ (i / 2) * 16 ^ (i % 2) := by
    conv_lhs => rw [← Nat.div_add_mod i 2, Nat.pow_add, Nat.pow_mul]
  apply BitVec.eq_of_toNat_eq
  rw [toNat_nibbleOf, toNat_halfOf, hword, hplace, ← Nat.div_div_eq_div_mul, ← hbyte]
  rcases Nat.mod_two_eq_zero_or_one i with hi | hi <;> rw [hi] <;> omega

end Machine

/-- Settles O2: the bytes of the encoding are exactly the format's, so the decoder takes them, reads the raw word back, and leaves
what follows. -/
theorem encodedBytesDecodeToTheirInstr : Obligations.EncodedBytesDecodeToTheirInstr := by
  intro i rest hbits
  rw [← format_encodeRaw] at hbits ⊢
  have hlen := length_bytesOfRaw (encodeRaw i)
  have hlong : ¬ (bytesOfRaw (encodeRaw i) ++ rest).length < formatBytes (encodeRaw i).format := by
    rw [List.length_append]
    omega
  rw [decodeBytes, encodeBytes, if_neg hlong, List.take_left' hlen, List.drop_left' hlen, rawOfBytes_bytesOfRaw hbits]
  simp only [decodeRaw_encodeRaw]

/-- Settles O3: an accepted list is long enough, its first bytes are those of the raw word read from them, and that word is the
encoding of what it decodes to. -/
theorem acceptedBytesAreTheEncoding : Obligations.AcceptedBytesAreTheEncoding := by
  intro f bs i rest h
  rw [decodeBytes] at h
  split at h
  · cases h
  · next hlong =>
    split at h
    · next raw hraw =>
      have hlen : (bs.take (formatBytes f)).length = formatBytes f := List.length_take_of_le (by omega)
      obtain ⟨hformat, hbytes⟩ := bytesOfRaw_of_rawOfBytes hlen hraw
      cases h
      refine ⟨(format_decodeRaw raw).trans hformat, ?_⟩
      rw [encodeBytes, encodeRaw_decodeRaw, hbytes, List.take_append_drop]
    · cases h

/-- Settles O7: each of the three words is one whose nibbles lie in its bytes, and the index inside the word names the same byte
and the same half as the index inside the block. -/
theorem nibblePositionsInTheByteStream : Obligations.NibblePositionsInTheByteStream := by
  intro m a g i hi
  refine ⟨?_, Machine.nibbleOf_wordAt m a hi, ?_⟩
  · have hbyte : a + 0x0c + 4 * (g / 8) + g % 8 / 2 = a + (12 + g / 2) := by omega
    rw [Machine.nibbleOf_wordAt _ _ (Nat.mod_lt g (by decide)), hbyte]
    exact Machine.halfOf_mod _ (by omega)
  · rw [Machine.nibbleOf_wordAt _ _ hi, Nat.add_assoc]
    rfl

end Sys2Proof
end

section
/-! PROOFS. Memory (20_memory.md), the two memories and the order of accesses (R60, R66, R72): what an instruction can do, the frame
of a command, the reads of a step, and the end of a call. -/

namespace Sys2Proof.Machine

/-! What each agent's turn can do -/

/-- The next states an instruction can answer: a command starts a call or is refused, the two instructions that read load or
fault at one of their reads, a descriptor begins a subframe, and a `SAMPLE` takes its value. -/
inductive State.ExecResult (s : State) : Instr → State → Prop where
  | started (c : Command) (hacc : s.accepts c) : s.ExecResult c.instr (s.startCall c)
  | refused (c : Command) (r : RefuseReason) : s.ExecResult c.instr (s.refuse r)
  | loaded {i : Instr} (hformat : i.format = .h ∨ i.format = .w) :
      s.ExecResult i (loadOperands i (s.afterReads (s.readsOf i)))
  | faulted {i : Instr} (hformat : i.format = .h ∨ i.format = .w) (made : List (Nat × Nat)) (a n : Nat)
      (hmade : ∀ r ∈ made, r ∈ s.readsOf i) : s.ExecResult i ((s.afterReads made).takeReadFault a n)
  | begun {i : Instr} (hformat : i.format = .d) (coefIndex shiftFactor : Nibble) :
      s.ExecResult i (beginSubframe coefIndex shiftFactor s)
  | sampled (n : Nibble) : s.ExecResult (.sample n) (s.takeSample (s.datapath n).clamped)

theorem execResult_command {s t : State} {c : Command} (h : exec c.instr s = .next t) : s.ExecResult c.instr t := by
  by_cases hacc : s.accepts c
  · obtain rfl := Host.Outcome.next.inj ((exec_decode_accepted hacc).symm.trans h)
    exact .started c hacc
  · obtain ⟨r, -, hexec⟩ := exec_decode_refused hacc
    obtain rfl := Host.Outcome.next.inj (hexec.symm.trans h)
    exact .refused c r

theorem execResult_reads {s t : State} {i : Instr} (hformat : i.format = .h ∨ i.format = .w)
    (h : exec i s = .next t) : s.ExecResult i t := by
  rw [exec_reads_then_loads hformat] at h
  rcases s.memReads_cases (s.readsOf i) (fun u => .next (loadOperands i u)) with
    ⟨-, hrun⟩ | ⟨pre, a, n, post, hreads, -, -, hrun⟩
  · obtain rfl := Host.Outcome.next.inj (hrun.symm.trans h)
    exact .loaded hformat
  · obtain rfl := Host.Outcome.next.inj (hrun.symm.trans h)
    refine .faulted hformat _ a n fun r hr => ?_
    rw [hreads, List.append_cons]
    exact List.mem_append_left post hr

theorem execResult_descriptor {s t : State} {i : Instr} (hformat : i.format = .d) (h : exec i s = .next t) :
    s.ExecResult i t := by
  obtain ⟨coefIndex, shiftFactor, hexec⟩ := exec_format_d hformat s
  obtain rfl := Host.Outcome.next.inj (hexec.symm.trans h)
  exact .begun hformat coefIndex shiftFactor

theorem execResult_of_exec {s t : State} {i : Instr} (h : exec i s = .next t) : s.ExecResult i t := by
  cases i with
  | decode base out spacing first count => exact execResult_command (c := ⟨base, out, spacing, first, count⟩) h
  | hdr => exact execResult_reads (.inl rfl) h
  | nibw => exact execResult_reads (.inr rfl) h
  | sample n =>
    obtain rfl := Host.Outcome.next.inj ((exec_sample s n).symm.trans h)
    exact .sampled n
  | _ => exact execResult_descriptor rfl h

/-- Everything the decoder's turn can do: it waits, or in a call it runs an instruction or ends the call. -/
theorem decoderTurn_next {s t : State} (h : decoderTurn s = .next t) :
    (s.status ≠ .busy ∧ t = s) ∨
    (s.status = .busy ∧ ∃ raw, s.upcoming = some raw ∧ exec (decodeRaw raw) s = .next t) ∨
    (s.status = .busy ∧ s.upcoming = none ∧ t = s.finish) := by
  by_cases hb : s.status = .busy
  · cases hup : s.upcoming with
    | some raw => exact .inr (.inl ⟨hb, raw, rfl, (decoderTurn_raw hb hup).symm.trans h⟩)
    | none => exact .inr (.inr ⟨hb, rfl, (Host.Outcome.next.inj ((decoderTurn_stop hb hup).symm.trans h)).symm⟩)
  · exact .inl ⟨hb, (Host.Outcome.next.inj ((decoderTurn_idle hb).symm.trans h)).symm⟩

/-! The frame of a command -/

/-- Settles O21: neither the start of a call nor a refusal touches a memory, the reads or the host's side. -/
theorem commandFrame : Obligations.CommandFrame := by
  intro s t c h
  by_cases hacc : s.accepts c
  · obtain rfl := Host.Outcome.next.inj ((exec_decode_accepted hacc).symm.trans h)
    exact ⟨fun _ => rfl, fun _ => rfl, rfl, rfl, rfl, fun hrefused => absurd hacc hrefused⟩
  · obtain ⟨r, -, hexec⟩ := exec_decode_refused hacc
    obtain rfl := Host.Outcome.next.inj (hexec.symm.trans h)
    exact ⟨fun _ => rfl, fun _ => rfl, rfl, rfl, rfl, fun _ => rfl⟩

/-! The byte source is not written (R60) -/

@[simp] theorem loadOperands_source (i : Instr) (s : State) : (loadOperands i s).source = s.source := by
  cases i <;> rfl

@[simp] theorem loadOperands_readLog (i : Instr) (s : State) : (loadOperands i s).readLog = s.readLog := by
  cases i <;> rfl

@[simp] theorem loadOperands_status (i : Instr) (s : State) : (loadOperands i s).status = s.status := by
  cases i <;> rfl

@[simp] theorem State.afterReads_source (s : State) (reads : List (Nat × Nat)) :
    (s.afterReads reads).source = s.source := rfl

@[simp] theorem State.afterReads_status (s : State) (reads : List (Nat × Nat)) :
    (s.afterReads reads).status = s.status := rfl

@[simp] theorem State.afterReads_readLog (s : State) (reads : List (Nat × Nat)) :
    (s.afterReads reads).readLog = s.readLog ++ reads := rfl

theorem exec_source {i : Instr} {s t : State} (h : exec i s = .next t) : t.source = s.source := by
  cases execResult_of_exec h <;> simp

theorem decoderTurn_source {s t : State} (h : decoderTurn s = .next t) : t.source = s.source := by
  rcases decoderTurn_next h with ⟨-, rfl⟩ | ⟨-, raw, -, hexec⟩ | ⟨-, -, rfl⟩
  · rfl
  · exact exec_source hexec
  · rfl

theorem step_source {s t : State} (h : step s = .next t) (hstore : ∀ a b rest, s.tape ≠ some (.storeByte a b) :: rest)
    (hdrop : ∀ a rest, s.tape ≠ some (.dropByte a) :: rest) : t.source = s.source := by
  rcases step_cases s with ⟨ev, rest, htape, hstep⟩ | ⟨-, hstep⟩
  · replace h := hstep.symm.trans h
    cases ev with
    | command c => exact (exec_source (i := c.instr) h :)
    | reset =>
      obtain rfl := Host.Outcome.next.inj h
      exact State.powerOn_source _
    | storeByte a b => exact absurd htape (hstore a b rest)
    | dropByte a => exact absurd htape (hdrop a rest)
    | storeSlot k v =>
      obtain rfl := Host.Outcome.next.inj h
      rfl
  · exact (decoderTurn_source (hstep.symm.trans h) :)

/-! The output buffer is not read (R60) -/

/-- The state with other contents of the output buffer. -/
def State.withOutBuf (s : State) (buf : List (Nat × Half)) : State := { s with outBuf := buf }

/-- Whatever the contents, the writes `w` leave a slot alone or put the same value there. -/
def SameWrites (w : List (Nat × Half) → List (Nat × Half)) : Prop :=
  ∀ buf buf' slot,
    (Memory.read (w buf) slot = Memory.read buf slot ∧ Memory.read (w buf') slot = Memory.read buf' slot) ∨
      Memory.read (w buf') slot = Memory.read (w buf) slot

theorem sameWrites_id : SameWrites id := fun _ _ _ => .inl ⟨rfl, rfl⟩

/-- One more write of a value that does not depend on the contents. -/
theorem SameWrites.write {w : List (Nat × Half) → List (Nat × Half)} (h : SameWrites w) (k : Nat) (v : Half) :
    SameWrites (fun buf => Memory.write (w buf) k v) := by
  intro buf buf' slot
  by_cases hslot : slot = k
  · exact .inr (by simp [hslot])
  · simp only [Memory.read_write_other _ _ hslot]
    exact h buf buf' slot

theorem sameWrites_freeSlots (slot spacing draw n : Nat) : SameWrites (freeSlots · slot spacing draw n) := by
  induction n with
  | zero => exact sameWrites_id
  | succ n ih => exact ih.write _ _

/-- `f` takes `s` to `t` and does not look at the output buffer: with any other contents it answers `t` but for them, and the
writes that make the contents are the same. -/
def IgnoresOutBuf (f : State → Host.Outcome State Fault Refusal) (s t : State) : Prop :=
  ∃ w, SameWrites w ∧ t.outBuf = w s.outBuf ∧ ∀ buf, f (s.withOutBuf buf) = .next (t.withOutBuf (w buf))

theorem ignoresOutBuf_of_untouched {f : State → Host.Outcome State Fault Refusal} {s t : State}
    (hbuf : t.outBuf = s.outBuf) (hf : ∀ buf, f (s.withOutBuf buf) = .next (t.withOutBuf buf)) : IgnoresOutBuf f s t :=
  ⟨id, sameWrites_id, hbuf, hf⟩

theorem exec_decode_of_refusal {s : State} {c : Command} {r : RefuseReason} (h : s.refusal c = some r) :
    exec c.instr s = .next (s.refuse r) := by
  have hr : s.refusal ⟨c.base, c.out, c.spacing, c.first, c.count⟩ = some r := h
  simp only [Command.instr, exec, execDecode, hr]

theorem exec_command_ignoresOutBuf {c : Command} {s t : State} (h : exec c.instr s = .next t) :
    IgnoresOutBuf (exec c.instr) s t := by
  cases hr : s.refusal c with
  | none =>
    have hacc := (s.refusal_none_iff c).mp hr
    obtain rfl := Host.Outcome.next.inj ((exec_decode_accepted hacc).symm.trans h)
    exact ignoresOutBuf_of_untouched rfl fun buf => exec_decode_accepted (s := s.withOutBuf buf) hacc
  | some r =>
    obtain rfl := Host.Outcome.next.inj ((exec_decode_of_refusal hr).symm.trans h)
    exact ignoresOutBuf_of_untouched rfl fun buf => exec_decode_of_refusal (s := s.withOutBuf buf) hr

theorem loadOperands_outBuf (i : Instr) (s : State) : (loadOperands i s).outBuf = s.outBuf := by
  cases i <;> rfl

theorem loadOperands_withOutBuf (i : Instr) (s : State) (buf : List (Nat × Half)) :
    loadOperands i (s.withOutBuf buf) = (loadOperands i s).withOutBuf buf := by
  cases i <;> rfl

/-- The reads are made of the source alone; a failed one frees the window's slots. -/
theorem exec_reads_ignoresOutBuf {i : Instr} (hformat : i.format = .h ∨ i.format = .w) {s t : State}
    (h : exec i s = .next t) : IgnoresOutBuf (exec i) s t := by
  have hexec := exec_reads_then_loads hformat
  rcases s.memReads_cases (s.readsOf i) (fun u => .next (loadOperands i u)) with
    ⟨hall, hrun⟩ | ⟨pre, a, n, post, hreads, hpre, hfail, hrun⟩
  · obtain rfl := Host.Outcome.next.inj ((hrun.symm.trans (hexec s).symm).trans h)
    refine ignoresOutBuf_of_untouched (loadOperands_outBuf i _) fun buf => (hexec _).trans ?_
    exact ((s.withOutBuf buf).memReads_ok _ _ hall).trans
      (congrArg Host.Outcome.next (loadOperands_withOutBuf i (s.afterReads (s.readsOf i)) buf))
  · obtain rfl := Host.Outcome.next.inj ((hrun.symm.trans (hexec s).symm).trans h)
    refine ⟨_, sameWrites_freeSlots s.outSlot s.channelSpacing s.draws s.windowSize, rfl, fun buf => ?_⟩
    have hreads' : (s.withOutBuf buf).readsOf i = pre ++ (a, n) :: post := hreads
    rw [hexec, hreads']
    exact (s.withOutBuf buf).memReads_fault pre post a n _ hpre hfail

theorem exec_sample_ignoresOutBuf (s : State) (n : Nibble) :
    IgnoresOutBuf (exec (.sample n)) s (s.takeSample (s.datapath n).clamped) := by
  by_cases hw : s.writes = true
  · refine ⟨_, sameWrites_id.write s.nextSlot (BitVec.ofInt 16 (s.datapath n).clamped), by simp [hw], fun buf => ?_⟩
    have hw' : (s.withOutBuf buf).writes = true := hw
    rw [exec_sample, State.takeSample_eq, State.takeSample_eq, hw, hw']
    rfl
  · refine ignoresOutBuf_of_untouched (by simp [hw]) fun buf => ?_
    have hw' : ¬ (s.withOutBuf buf).writes = true := hw
    rw [exec_sample, State.takeSample_eq, State.takeSample_eq]
    simp only [if_neg hw, if_neg hw']
    rfl

theorem exec_ignoresOutBuf {i : Instr} {s t : State} (h : exec i s = .next t) : IgnoresOutBuf (exec i) s t := by
  cases i with
  | decode base out spacing first count => exact exec_command_ignoresOutBuf (c := ⟨base, out, spacing, first, count⟩) h
  | hdr => exact exec_reads_ignoresOutBuf (.inl rfl) h
  | nibw => exact exec_reads_ignoresOutBuf (.inr rfl) h
  | sample n =>
    obtain rfl := Host.Outcome.next.inj ((exec_sample s n).symm.trans h)
    exact exec_sample_ignoresOutBuf s n
  | _ =>
    obtain rfl := Host.Outcome.next.inj h
    exact ignoresOutBuf_of_untouched rfl fun _ => rfl

theorem decoderTurn_ignoresOutBuf {s t : State} (h : decoderTurn s = .next t) : IgnoresOutBuf decoderTurn s t := by
  rcases decoderTurn_next h with ⟨hidle, rfl⟩ | ⟨hb, raw, hup, hexec⟩ | ⟨hb, hup, rfl⟩
  · exact ignoresOutBuf_of_untouched rfl fun buf => decoderTurn_idle (s := t.withOutBuf buf) hidle
  · obtain ⟨w, hw, hbuf, hrun⟩ := exec_ignoresOutBuf hexec
    exact ⟨w, hw, hbuf, fun buf => (decoderTurn_raw (s := s.withOutBuf buf) hb hup).trans (hrun buf)⟩
  · exact ignoresOutBuf_of_untouched rfl fun buf => decoderTurn_stop (s := s.withOutBuf buf) hb hup

/-- A reset frees the window of a call in progress and writes nothing else. -/
theorem powerOn_ignoresOutBuf (s : State) : IgnoresOutBuf (hostTurn .reset) s s.powerOn := by
  by_cases hb : s.status = .busy
  · refine ⟨_, sameWrites_freeSlots s.outSlot s.channelSpacing s.draws s.windowSize, ?_, fun buf => ?_⟩
    · simp [State.powerOn, hb]
    · have hb' : (s.withOutBuf buf).status = .busy := hb
      simp only [hostTurn, State.powerOn, hb, hb', if_true]
      rfl
  · refine ignoresOutBuf_of_untouched (by simp [State.powerOn, hb]) fun buf => ?_
    have hb' : (s.withOutBuf buf).status ≠ .busy := hb
    simp only [hostTurn, State.powerOn, if_neg hb, if_neg hb']
    rfl

theorem hostTurn_ignoresOutBuf {ev : HostEvent} {s t : State} (h : hostTurn ev s = .next t) :
    IgnoresOutBuf (hostTurn ev) s t := by
  cases ev with
  | command c => exact exec_command_ignoresOutBuf h
  | reset =>
    obtain rfl := Host.Outcome.next.inj h
    exact powerOn_ignoresOutBuf s
  | storeByte | dropByte =>
    obtain rfl := Host.Outcome.next.inj h
    exact ignoresOutBuf_of_untouched rfl fun _ => rfl
  | storeSlot k v =>
    obtain rfl := Host.Outcome.next.inj h
    exact ⟨_, sameWrites_id.write k v, rfl, fun _ => rfl⟩

theorem step_event {s : State} {ev : HostEvent} {rest : List (Option HostEvent)} (h : s.tape = some ev :: rest) :
    step s = hostTurn ev { s with tape := rest } := by
  simp only [step, h]

theorem step_ignoresOutBuf {s t : State} (h : step s = .next t) : IgnoresOutBuf step s t := by
  rcases step_cases s with ⟨ev, rest, htape, hstep⟩ | ⟨hsilent, hstep⟩
  · obtain ⟨w, hw, hbuf, hrun⟩ := hostTurn_ignoresOutBuf (hstep.symm.trans h)
    exact ⟨w, hw, hbuf, fun buf => (step_event (s := s.withOutBuf buf) htape).trans (hrun buf)⟩
  · obtain ⟨w, hw, hbuf, hrun⟩ := decoderTurn_ignoresOutBuf (hstep.symm.trans h)
    exact ⟨w, hw, hbuf, fun buf => (step_silent (s := s.withOutBuf buf) hsilent).trans (hrun buf)⟩

/-- Settles O42: no turn but the host's own stores writes the source, and the writes of a step do not depend on what the output
buffer holds. -/
theorem sourceNeverWrittenOutputNeverRead : Obligations.SourceNeverWrittenOutputNeverRead := by
  refine ⟨fun s t h => step_source h, fun s t buf h => ?_⟩
  obtain ⟨w, hw, hbuf, hrun⟩ := step_ignoresOutBuf h
  refine ⟨w buf, hrun buf, fun slot => ?_⟩
  rw [hbuf]
  exact hw s.outBuf buf slot

/-! The reads of a step (R66, R122) -/

/-- Every read of the two instructions that read lies in the block. -/
theorem State.readsOf_inBlock {s : State} {i : Instr} {r : Nat × Nat} (h : r ∈ s.readsOf i) :
    s.blockAddr ≤ r.1 ∧ r.1 + r.2 ≤ s.blockAddr + 0x8c := by
  unfold State.readsOf at h
  split at h
  · simp only [State.headerReads, List.mem_cons, List.not_mem_nil, or_false] at h
    rcases h with rfl | rfl | rfl | rfl <;> exact ⟨by omega, by omega⟩
  · obtain rfl := List.mem_singleton.mp h
    simp only [State.nibbleWordAddr, headerBytes, subframeBytes, nibbleWordBytes]
    omega

/-- From `s` to `t` reads were only added, and only inside the block of `s`. -/
def State.ReadsInBlock (s t : State) : Prop :=
  ∃ new, t.readLog = s.readLog ++ new ∧ ∀ r ∈ new, s.blockAddr ≤ r.1 ∧ r.1 + r.2 ≤ s.blockAddr + 0x8c

theorem State.readsInBlock_of_none {s t : State} (h : t.readLog = s.readLog) : s.ReadsInBlock t :=
  ⟨[], by simp [h], by simp⟩

theorem exec_readsInBlock {i : Instr} {s t : State} (h : exec i s = .next t) : s.ReadsInBlock t := by
  cases execResult_of_exec h with
  | loaded => exact ⟨s.readsOf i, by simp, fun r hr => State.readsOf_inBlock hr⟩
  | faulted _ made a n hmade => exact ⟨made, by simp, fun r hr => State.readsOf_inBlock (hmade r hr)⟩
  | started | refused | begun | sampled => exact State.readsInBlock_of_none (by simp)

theorem decoderTurn_readsInBlock {s t : State} (h : decoderTurn s = .next t) : s.ReadsInBlock t := by
  rcases decoderTurn_next h with ⟨-, rfl⟩ | ⟨-, raw, -, hexec⟩ | ⟨-, -, rfl⟩
  · exact State.readsInBlock_of_none rfl
  · exact exec_readsInBlock hexec
  · exact State.readsInBlock_of_none rfl

theorem hostTurn_readsInBlock {ev : HostEvent} {s t : State} (h : hostTurn ev s = .next t) : s.ReadsInBlock t := by
  cases ev with
  | command c => exact exec_readsInBlock (i := c.instr) h
  | reset =>
    obtain rfl := Host.Outcome.next.inj h
    exact State.readsInBlock_of_none s.powerOn_readLog
  | storeByte | dropByte | storeSlot =>
    obtain rfl := Host.Outcome.next.inj h
    exact State.readsInBlock_of_none rfl

/-- Settles O43: only `HDR` and `NIBW` read, and every read of theirs lies in the block. -/
theorem readsStayInsideTheBlock : Obligations.ReadsStayInsideTheBlock := by
  intro s t h
  rcases step_cases s with ⟨ev, rest, -, hstep⟩ | ⟨-, hstep⟩
  · exact (hostTurn_readsInBlock (hstep.symm.trans h) :)
  · exact (decoderTurn_readsInBlock (hstep.symm.trans h) :)

/-! The end of a call (R72, R74) -/

/-- What an instruction does to `STATUS`. -/
theorem exec_status {i : Instr} {s t : State} (h : exec i s = .next t) :
    t.status = s.status ∨ (i.format = .cmd ∧ s.callOver = true ∧ t.status = .busy) ∨
      ((i.format = .h ∨ i.format = .w) ∧ t.status = .fault) := by
  cases execResult_of_exec h with
  | started c hacc => exact .inr (.inl ⟨rfl, s.callOver_eq_true.mpr hacc.1, rfl⟩)
  | faulted hformat => exact .inr (.inr ⟨hformat, rfl⟩)
  | refused | loaded | begun | sampled => exact .inl (by simp)

/-- A call reaches `DONE` by its end alone, never by an instruction. -/
theorem decoderTurn_done {s t : State} (hb : s.status = .busy) (h : decoderTurn s = .next t) (hdone : t.status = .done) :
    t = s.finish := by
  rcases decoderTurn_next h with ⟨hidle, -⟩ | ⟨-, raw, -, hexec⟩ | ⟨-, -, ht⟩
  · exact absurd hb hidle
  · have hstatus := exec_status hexec
    simp [hb, hdone] at hstatus
  · exact ht

/-- One step of a run. -/
theorem core_run_succ {s t : State} (h : step s = .next t) (k : Nat) :
    Host.Core.run Sys2Proof.core (k + 1) s = Host.Core.run Sys2Proof.core k t := by
  have hcore : Sys2Proof.core.step s = .next t := h
  simp only [Host.Core.run, hcore]

/-- R35: once a call is over nothing happens until the host acts. -/
theorem core_run_idle {s : State} (htape : s.tape = []) (hover : s.status ≠ .busy) (k : Nat) :
    Host.Core.run Sys2Proof.core k s = .next s := by
  have hstep : step s = .next s := by
    simp only [step, htape]
    exact decoderTurn_idle hover
  induction k with
  | zero => rfl
  | succ k ih => exact (core_run_succ hstep k).trans ih

/-- Settles O52: what instructions do to `STATUS`, the slot a `SAMPLE` leaves, the end of a call as the only way to `DONE`, and the
time after it. -/
theorem endOfCallIsTheOnlySynchronisation : Obligations.EndOfCallIsTheOnlySynchronisation := by
  refine ⟨fun i s t => exec_status, fun s n hw => ⟨_, exec_sample s n, by simp [hw]⟩,
    fun s t hsilent hbusy h hdone => ?_, fun s htape hover => core_run_idle htape (s.callOver_eq_true.mp hover)⟩
  have hb : s.popped.status = .busy := by simpa [State.callOver, State.popped] using hbusy
  obtain rfl := decoderTurn_done hb ((step_silent hsilent).symm.trans h) hdone
  exact ⟨rfl, rfl, rfl, rfl⟩

end Sys2Proof.Machine
end

section
/-! PROOFS. Encoding (30_encoding.md), no encoding is illegal (R104) and the opcode map (R103). -/

namespace Sys2Proof

/-- Settles O1: `decodeRaw_encodeRaw` constructor by constructor, `encodeRaw_decodeRaw` format by format. -/
theorem rawWordsRoundTripBothWays : Obligations.RawWordsRoundTripBothWays :=
  ⟨decodeRaw_encodeRaw, encodeRaw_decodeRaw⟩

/-- R104: bytes of a format wider than a nibble always hold a raw word of it. -/
theorem exists_rawOfBytes {f : Format} (hf : f = .h ∨ f = .d ∨ f = .w) (bs : List Byte) :
    ∃ raw, rawOfBytes f bs = .ok raw := by
  rcases hf with rfl | rfl | rfl <;> exact ⟨_, rfl⟩

theorem decodeBytes_of_short {f : Format} {bs : List Byte} (h : bs.length < formatBytes f) :
    decodeBytes f bs = .error (.tooShort f bs.length) :=
  if_pos h

theorem decodeBytes_of_raw {f : Format} {bs : List Byte} {raw : Raw} (hlen : formatBytes f ≤ bs.length)
    (hraw : rawOfBytes f (bs.take (formatBytes f)) = .ok raw) :
    decodeBytes f bs = .ok (decodeRaw raw, bs.drop (formatBytes f)) := by
  rw [decodeBytes, if_neg (Nat.not_lt.mpr hlen), hraw]

theorem decodeBytes_of_error {f : Format} {bs : List Byte} {e : DecodeError} (hlen : formatBytes f ≤ bs.length)
    (hraw : rawOfBytes f (bs.take (formatBytes f)) = .error e) : decodeBytes f bs = .error e := by
  rw [decodeBytes, if_neg (Nat.not_lt.mpr hlen), hraw]

/-- Settles O4: the length test is the only one, because the bytes it lets through always hold a raw word. -/
theorem noEncodingIsIllegal : Obligations.NoEncodingIsIllegal := by
  intro f bs hf
  refine ⟨fun hlen => ?_, decodeBytes_of_short⟩
  obtain ⟨raw, hraw⟩ := exists_rawOfBytes hf (bs.take (formatBytes f))
  exact ⟨decodeRaw raw, decodeBytes_of_raw hlen hraw⟩

/-- Every row of the opcode map looks at the low half of the descriptor alone (R103). -/
theorem descriptorRows_mask : ∀ r ∈ descriptorRows, r.2.2 = 0x0F := by decide

theorem and_lowMask (d : BitVec 8) : d &&& 0x0F = BitVec.ofNat 8 (d.toNat % 16) := by
  apply BitVec.eq_of_toNat_eq
  have hmask : d.toNat &&& (0x0F : BitVec 8).toNat = d.toNat % 16 := Nat.and_two_pow_sub_one_eq_mod d.toNat 4
  rw [BitVec.toNat_and, hmask]
  exact (Nat.mod_eq_of_lt (by omega)).symm

/-- Settles O5: matching a row and decoding both depend on the low half of the word, and each of its 16 values matches the row of
the mnemonic it decodes to. -/
theorem descriptorWordsMatchOneOpcodeRow : Obligations.DescriptorWordsMatchOneOpcodeRow := by
  intro d
  have hfilter : descriptorRows.filter (fun r => d &&& r.2.2 == r.2.1) =
      descriptorRows.filter (fun r => BitVec.ofNat 8 (d.toNat % 16) == r.2.1) :=
    List.filter_congr fun r hr => by rw [descriptorRows_mask r hr, and_lowMask]
  have hlt : d.toNat % 16 < 16 := Nat.mod_lt _ (by decide)
  rw [hfilter, decodeDescriptor]
  generalize d.toNat % 16 = c at hlt
  match c, hlt with
  | 0, _ | 1, _ | 2, _ | 3, _ | 4, _ | 5, _ | 6, _ | 7, _ => rfl
  | 8, _ | 9, _ | 10, _ | 11, _ | 12, _ | 13, _ | 14, _ | 15, _ => rfl
  | c + 16, hlt => omega

end Sys2Proof
end

section
/-! PROOFS. Encoding (30_encoding.md), an instruction placed by `withFetchWord` (log 21): the bits at the place that stands next are
those the decoder read it from. -/

namespace Sys2Proof

/-! What the decoder reads from a table word (R103) -/

/-- A table word that has bits decodes through the raw word its bytes hold. -/
theorem rawOfBytes_of_decodeTableWord {nbits w : Nat} {i : Instr} {f : Format} (hf : formatOfTableBits nbits = some f)
    (hbits : f ≠ .cmd) (h : decodeTableWord nbits w = some i) :
    ∃ raw, rawOfBytes f (leBytes (formatBytes f) w) = .ok raw ∧ i = decodeRaw raw := by
  have hlen := length_leBytes (formatBytes f) w
  have htake : (leBytes (formatBytes f) w).take (formatBytes f) = leBytes (formatBytes f) w :=
    List.take_of_length_le hlen.le
  cases hraw : rawOfBytes f (leBytes (formatBytes f) w) with
  | error e =>
    have hbytes := decodeBytes_of_error hlen.ge (htake.symm ▸ hraw)
    simp [decodeTableWord, hf, hbytes] at h
  | ok raw =>
    have hbytes := decodeBytes_of_raw hlen.ge (htake.symm ▸ hraw)
    have hdecoded : decodeRaw raw = i := by simpa [decodeTableWord, hf, hbytes] using h
    exact ⟨raw, rfl, hdecoded.symm⟩

/-! The field `withNibble` places (R94, R98) -/

theorem getElem_lowNibble : ∀ b : Fin 4, (0xF#32)[b.val] = true := by decide

/-- The replaced field of a word of eight reads back. -/
theorem nibbleOf_withNibble (w : Word) {i : Nat} (hi : i < 8) (v : Nibble) : nibbleOf (withNibble w i v) i = v := by
  apply BitVec.eq_of_getElem_eq
  intro b hb
  have hin : 4 * i + b < 32 := by omega
  have hmask : (0xF#32)[b] = true := getElem_lowNibble ⟨b, hb⟩
  simp [nibbleOf, withNibble, hin, hb, hmask]

/-- The two halves of a byte's worth of a number make it up (R96). -/
theorem descriptorBits_ofNat (w : Nat) :
    descriptorBits (BitVec.ofNat 4 (w / 16)) (BitVec.ofNat 4 w) = BitVec.ofNat 8 (leNat (leBytes 1 w)) := by
  have hlow : (BitVec.ofNat 8 w).toNat % 16 = w % 16 := by
    rw [BitVec.toNat_ofNat]
    omega
  have hhigh : (BitVec.ofNat 8 w).extractLsb' 4 4 = BitVec.ofNat 4 (w / 16) := by
    apply BitVec.eq_of_toNat_eq
    simp only [BitVec.extractLsb'_toNat, BitVec.toNat_ofNat, Nat.shiftRight_eq_div_pow]
    omega
  have hbyte : BitVec.ofNat 8 (leNat (leBytes 1 w)) = BitVec.ofNat 8 w := by
    apply BitVec.eq_of_toNat_eq
    simp [leNat_leBytes]
  have hfields := descriptorBits_fields (BitVec.ofNat 8 w)
  rw [hhigh, hlow] at hfields
  rw [hbyte, ← hfields]
  congr 1
  apply BitVec.eq_of_toNat_eq
  simp

namespace Machine

/-! What stands next in the state with the instruction placed -/

theorem Memory.value_writeBytes_leBytes (m : List Host.Cell) (a k v : Nat) :
    Memory.value (Memory.writeBytes m a (leBytes k v)) a k = leNat (leBytes k v) := by
  have hbytes := Memory.bytesAt_writeBytes (leBytes k v) m a
  rw [length_leBytes] at hbytes
  rw [Memory.value, hbytes]

/-- The samples done are below the quota that was opened for one more. -/
theorem State.quotaOpen_openQuota (s : State) : s.openQuota.quotaOpen = true := by
  unfold State.openQuota
  split
  · assumption
  · simp [State.quotaOpen]

theorem upcoming_placeHeader (s : State) {w : Nat} {raw : Raw} (h : rawOfBytes .h (leBytes 12 w) = .ok raw) :
    (s.placeHeader w).popped.upcoming = some raw := by
  cases h
  exact congrArg (fun v => some (Raw.h (BitVec.ofNat 96 v))) (Memory.value_writeBytes_leBytes s.source s.blockAddr 12 w)

theorem upcoming_placeWord (s : State) {w : Nat} {raw : Raw} (h : rawOfBytes .w (leBytes 4 w) = .ok raw) :
    (s.placeWord w).popped.upcoming = some raw := by
  cases h
  exact congrArg (fun v => some (Raw.w (BitVec.ofNat 32 v)))
    (Memory.value_writeBytes_leBytes s.source s.nibbleWordAddr 4 w)

theorem upcoming_placeDescriptor (s : State) {w : Nat} {raw : Raw} (h : rawOfBytes .d (leBytes 1 w) = .ok raw) :
    (s.placeDescriptor w).popped.upcoming = some raw := by
  have hquota : (s.placeDescriptor w).popped.quotaOpen = true := s.inCall.quotaOpen_openQuota
  have hfields : (s.placeDescriptor w).popped.descriptor s.pos.i.val = BitVec.ofNat 8 (leNat (leBytes 1 w)) := by
    rw [← descriptorBits_ofNat]
    exact congrArg₂ descriptorBits (nibbleOf_withNibble s.shiftBits s.pos.i.isLt _)
      (nibbleOf_withNibble s.coefBits s.pos.i.isLt _)
  cases h
  rw [← hfields]
  exact if_pos hquota

theorem upcoming_placeNibble (s : State) {w : Nat} {raw : Raw} (h : rawOfBytes .n (leBytes 1 w) = .ok raw) :
    (s.placeNibble w).popped.upcoming = some raw := by
  have hquota : (s.placeNibble w).popped.quotaOpen = true := s.inCall.quotaOpen_openQuota
  have hnibble : (s.placeNibble w).popped.currentNibble = BitVec.ofNat 4 w :=
    nibbleOf_withNibble s.nibWord s.pos.k.isLt _
  have hvalue : BitVec.ofNat 4 (leNat (leBytes 1 w)) = BitVec.ofNat 4 w := by
    apply BitVec.eq_of_toNat_eq
    simp only [leNat_leBytes, BitVec.toNat_ofNat]
    omega
  rw [rawOfBytes] at h
  split at h
  · cases h
    rw [hvalue, ← hnibble]
    exact if_pos hquota
  · cases h

/-- In a call with the host silent, the step runs what stands next. -/
theorem step_raw {s : State} {raw : Raw} (hsilent : s.hostSilent) (hb : s.status = .busy)
    (hup : s.popped.upcoming = some raw) : step s = exec (decodeRaw raw) s.popped :=
  (step_silent hsilent).trans (decoderTurn_raw hb hup)

/-- Settles O9: a format with bits is placed where the decoder's turn takes them, in a call, and the command on the tape. -/
theorem placedInstructionRunsNext : Obligations.PlacedInstructionRunsNext := by
  intro s nbits w i h
  cases hf : formatOfTableBits nbits with
  | none => simp [decodeTableWord, hf] at h
  | some f =>
    rw [State.withFetchWord, hf]
    by_cases hbits : f = .cmd
    · subst hbits
      have hzeros : .decode 0 0 0 0 0 = i := by simpa [decodeTableWord, hf, decodeRaw] using h
      rw [← hzeros]
      exact step_event (s := s.placeCommand) (rest := s.tape) rfl
    · obtain ⟨raw, hraw, rfl⟩ := rawOfBytes_of_decodeTableWord hf hbits h
      have hsilent : ∀ t : State, t.tape = none :: s.tape → t.hostSilent := fun t ht => .inr ⟨s.tape, ht⟩
      cases f with
      | cmd => exact absurd rfl hbits
      | h => exact step_raw (hsilent (s.placeHeader w) rfl) rfl (upcoming_placeHeader s hraw)
      | d => exact step_raw (hsilent (s.placeDescriptor w) rfl) rfl (upcoming_placeDescriptor s hraw)
      | w => exact step_raw (hsilent (s.placeWord w) rfl) rfl (upcoming_placeWord s hraw)
      | n => exact step_raw (hsilent (s.placeNibble w) rfl) rfl (upcoming_placeNibble s hraw)

end Machine

end Sys2Proof
end

section
/-! PROOFS. Encoding (30_encoding.md), every bit pattern has a meaning that completes (R104): `HDR`, `NIBW`, every instruction, and
every step. -/

namespace Sys2Proof.Machine

/-- R99: the sign extension keeps the value. -/
theorem toInt_sext16 (v : Half) : (sext16 v).toInt = v.toInt := BitVec.toInt_signExtend_of_le (by decide)

/-- Settles O23: where the four reads succeed `HDR` is one record update. -/
theorem hdrCompletes : Obligations.HdrCompletes := by
  intro s coefBits shiftBits hist1 hist2 h0 h4 h8 ha
  have hreads : ∀ r ∈ s.headerReads, Memory.readable s.source r.1 r.2 = true := by
    simpa [State.headerReads] using ⟨h0, h4, h8, ha⟩
  exact ⟨_, exec_hdr_ok s coefBits shiftBits hist1 hist2 hreads, rfl, rfl, toInt_sext16 hist1, toInt_sext16 hist2,
    rfl, rfl, rfl, rfl⟩

/-- Settles O29: where its read succeeds `NIBW` is one record update. -/
theorem nibwCompletes : Obligations.NibwCompletes := by
  intro s word h
  exact ⟨_, exec_nibw_ok s word h, rfl, rfl, rfl, rfl, rfl, rfl, rfl⟩

/-- An instruction that reads first answers a next state: it loads, or one of its reads fails and the call ends. -/
theorem State.memReads_answers (s : State) (reads : List (Nat × Nat)) (load : State → State) :
    ∃ t, s.memReads reads (fun u => .next (load u)) = .next t := by
  rcases s.memReads_cases reads (fun u => .next (load u)) with ⟨-, hrun⟩ | ⟨pre, a, n, post, -, -, -, hrun⟩
  · exact ⟨_, hrun⟩
  · exact ⟨_, hrun⟩

/-- A command answers a next state, accepted or refused. -/
theorem exec_command_answers (c : Command) (s : State) : ∃ t, exec c.instr s = .next t := by
  by_cases hacc : s.accepts c
  · exact ⟨_, exec_decode_accepted hacc⟩
  · obtain ⟨r, -, hexec⟩ := exec_decode_refused hacc
    exact ⟨_, hexec⟩

theorem exec_answers (i : Instr) (s : State) : ∃ t, exec i s = .next t := by
  cases i with
  | decode base out spacing first count => exact exec_command_answers ⟨base, out, spacing, first, count⟩ s
  | hdr cb sb h1 h2 => exact s.memReads_answers s.headerReads (loadOperands (.hdr cb sb h1 h2))
  | nibw word => exact s.memReads_answers s.nibbleReads (loadOperands (.nibw word))
  | sample n => exact ⟨_, exec_sample s n⟩
  | _ => exact ⟨_, rfl⟩

theorem decoderTurn_answers (s : State) : ∃ t, decoderTurn s = .next t := by
  by_cases hb : s.status = .busy
  · cases hup : s.upcoming with
    | some raw =>
      rw [decoderTurn_raw hb hup]
      exact exec_answers (decodeRaw raw) s
    | none => exact ⟨_, decoderTurn_stop hb hup⟩
  · exact ⟨_, decoderTurn_idle hb⟩

theorem hostTurn_answers (ev : HostEvent) (s : State) : ∃ t, hostTurn ev s = .next t := by
  cases ev with
  | command c => exact exec_command_answers c s
  | reset | storeByte | dropByte | storeSlot => exact ⟨_, rfl⟩

/-- Settles O12: both turns answer a next state. -/
theorem everyStepAnswersNext : Obligations.EveryStepAnswersNext := by
  intro s
  rcases step_cases s with ⟨ev, rest, -, hstep⟩ | ⟨-, hstep⟩
  · rw [hstep]
    exact hostTurn_answers ev _
  · rw [hstep]
    exact decoderTurn_answers _

end Sys2Proof.Machine
end

section
/-! PROOFS. Encoding (30_encoding.md), the commands of `DECODE_RANGE` (R108). -/

namespace Sys2Proof.Machine

/-- A round's samples lie in one block (R108). -/
theorem rangeChunk_inBlock (first count : Nat) : first % 256 + rangeChunk first count ≤ 256 := by
  unfold rangeChunk blockSamples
  omega

/-- A round that leaves samples fills its block (R108). -/
theorem rangeChunk_fills {first count : Nat} (h : rangeChunk first count < count) :
    (first + rangeChunk first count) % 256 = 0 := by
  unfold rangeChunk blockSamples at h ⊢
  omega

/-- A property of the commands of a range holds if it holds of none and a round keeps it. -/
theorem decodeRange_induction {base sp : Nat} {P : (out first count : Nat) → List Command → Prop}
    (empty : ∀ out first, P out first 0 [])
    (round : ∀ out first count n rest, 0 < count → n = rangeChunk first count →
      rest = decodeRange base (out + n * sp) sp (first + n) (count - n) →
      P (out + n * sp) (first + n) (count - n) rest → P out first count (⟨base, out, sp, first, n⟩ :: rest))
    (out first count : Nat) : P out first count (decodeRange base out sp first count) := by
  induction count using Nat.strongRecOn generalizing out first with
  | ind count ih =>
    rcases Nat.eq_zero_or_pos count with rfl | hpos
    · exact empty out first
    · have hchunk := rangeChunk_pos (first := first) hpos
      rw [decodeRange_pos base out sp first hpos]
      exact round out first count _ _ hpos rfl rfl (ih _ (by omega) _ _)

theorem sum_count_decodeRange (base out sp first count : Nat) :
    ((decodeRange base out sp first count).map fun c => c.count).sum = count := by
  refine decodeRange_induction (P := fun _ _ count cs => (cs.map fun c => c.count).sum = count) ?_ ?_ out first count
  · exact fun _ _ => rfl
  · intro out first count n rest hpos hn _ ih
    have hchunk := rangeChunk_pos (first := first) hpos
    simp only [List.map_cons, List.sum_cons, ih]
    omega

theorem mem_decodeRange (base out sp first count : Nat) :
    ∀ c ∈ decodeRange base out sp first count,
      c.base = base ∧ c.spacing = sp ∧ 1 ≤ c.count ∧ c.first % 256 + c.count ≤ 256 := by
  refine decodeRange_induction (P := fun _ _ _ cs => ∀ c ∈ cs,
    c.base = base ∧ c.spacing = sp ∧ 1 ≤ c.count ∧ c.first % 256 + c.count ≤ 256) ?_ ?_ out first count
  · exact fun _ _ => List.forall_mem_nil _
  · intro out first count n rest hpos hn _ ih
    have hchunk := rangeChunk_pos (first := first) hpos
    have hblock := rangeChunk_inBlock first count
    exact List.forall_mem_cons.mpr ⟨⟨rfl, rfl, by dsimp only; omega, by dsimp only; omega⟩, ih⟩

/-- The first command starts the range, and there is one only if the range is not empty. -/
theorem decodeRange_head {base out sp first count : Nat} {c : Command} {rest : List Command}
    (h : decodeRange base out sp first count = c :: rest) : 0 < count ∧ c.first = first ∧ c.out = out := by
  rcases Nat.eq_zero_or_pos count with rfl | hpos
  · cases h
  · rw [decodeRange_pos base out sp first hpos] at h
    cases h
    exact ⟨hpos, rfl, rfl⟩

/-- `d` goes on where `c` ended, at the start of a block, the slots `sp` apart (R108). -/
def Command.FollowedBy (sp : Nat) (c d : Command) : Prop :=
  d.first = c.first + c.count ∧ d.out = c.out + c.count * sp ∧ d.first % 256 = 0

theorem isChain_decodeRange (base out sp first count : Nat) :
    (decodeRange base out sp first count).IsChain (Command.FollowedBy sp) := by
  refine decodeRange_induction (P := fun _ _ _ cs => cs.IsChain (Command.FollowedBy sp)) ?_ ?_ out first count
  · exact fun _ _ => .nil
  · intro out first count n rest hpos hn hrest ih
    refine List.isChain_cons.mpr ⟨fun d hd => ?_, ih⟩
    obtain ⟨tail, htail⟩ := List.head?_eq_some_iff.mp hd
    obtain ⟨hleft, hfirst, hout⟩ := decodeRange_head (hrest.symm.trans htail)
    have hfull : (first + n) % 256 = 0 := hn ▸ rangeChunk_fills (by omega)
    exact ⟨hfirst, hout, hfirst ▸ hfull⟩

/-- Settles O48: one induction over the rounds for each clause, and the first command by its one round. -/
theorem rangeIsSplitAtBlocks : Obligations.RangeIsSplitAtBlocks := by
  intro base out sp first count
  refine ⟨sum_count_decodeRange base out sp first count, mem_decodeRange base out sp first count,
    fun c rest h => (decodeRange_head h).2, fun pre c d post h => ?_⟩
  have hchain := isChain_decodeRange base out sp first count
  rw [h, List.isChain_append_cons_cons] at hchain
  obtain ⟨-, hnext, -⟩ := hchain
  exact hnext

end Sys2Proof.Machine
end

section
/-! PROOFS. Encoding (30_encoding.md), the host's loop over a range (R108): every call ends within a bound (R123), so each round's
wait reaches the end of its call. -/

namespace Sys2Proof.Machine

/-! The decoder's turns left in a call (R123, R250) -/

/-- The turns from the nibble at a position to the end of the call: the nibbles, words and descriptors that follow, and the end
itself. -/
def SeqPos.turnsLeft (p : SeqPos) : Nat := 295 - (37 * p.i.val + 9 * p.j.val + p.k.val)

/-- The most turns the decoder can take from a place of R250's loop to the end of the call. -/
def State.turnsLeft (s : State) : Nat :=
  match s.stage with
  | .header => s.pos.turnsLeft + 3
  | .boundary => if s.pos.j = 0 then s.pos.turnsLeft + 2 else s.pos.turnsLeft + 1
  | .fetch => s.pos.turnsLeft + 1
  | .nibble => s.pos.turnsLeft
  | .exhausted => 1

theorem State.turnsLeft_header {s : State} (h : s.stage = .header) : s.turnsLeft = s.pos.turnsLeft + 3 := by
  simp [State.turnsLeft, h]

theorem State.turnsLeft_boundary {s : State} (h : s.stage = .boundary) :
    s.turnsLeft = if s.pos.j = 0 then s.pos.turnsLeft + 2 else s.pos.turnsLeft + 1 := by
  simp [State.turnsLeft, h]

theorem State.turnsLeft_fetch {s : State} (h : s.stage = .fetch) : s.turnsLeft = s.pos.turnsLeft + 1 := by
  simp [State.turnsLeft, h]

theorem State.turnsLeft_nibble {s : State} (h : s.stage = .nibble) : s.turnsLeft = s.pos.turnsLeft := by
  simp [State.turnsLeft, h]

theorem State.turnsLeft_exhausted {s : State} (h : s.stage = .exhausted) : s.turnsLeft = 1 := by
  simp [State.turnsLeft, h]

theorem SeqPos.two_le_turnsLeft (p : SeqPos) : 2 ≤ p.turnsLeft := by
  unfold SeqPos.turnsLeft
  omega

/-- R123: at least the end of the call is left, and at most the steps of a whole call. -/
theorem State.turnsLeft_range (s : State) : 0 < s.turnsLeft ∧ s.turnsLeft ≤ callSteps := by
  have hlow := s.pos.two_le_turnsLeft
  have hhigh : s.pos.turnsLeft ≤ 295 := Nat.sub_le _ _
  unfold callSteps
  cases h : s.stage with
  | header =>
    rw [State.turnsLeft_header h]
    omega
  | boundary =>
    rw [State.turnsLeft_boundary h]
    split <;> omega
  | fetch =>
    rw [State.turnsLeft_fetch h]
    omega
  | nibble =>
    rw [State.turnsLeft_nibble h]
    omega
  | exhausted =>
    rw [State.turnsLeft_exhausted h]
    omega

/-- Each nibble decoded is one turn less, and after a word's last one the descriptor that may follow is counted. -/
theorem State.turnsLeft_takeSample {s : State} (h : s.stage = .nibble) (v : Int) :
    (s.takeSample v).turnsLeft < s.turnsLeft := by
  have hpos := s.takeSample_pos v
  have hstage := s.takeSample_stage v
  rw [State.turnsLeft_nibble h]
  rcases s.pos.next_cases with ⟨hk, hnext, hindex, hi⟩ | ⟨hk, -, hnext, hindex, hk0, -⟩ | ⟨-, hnext, -⟩
  · rw [State.turnsLeft_nibble (hstage.trans hnext), hpos]
    simp only [SeqPos.index, SeqPos.turnsLeft, hi] at hindex ⊢
    omega
  · rw [State.turnsLeft_boundary (hstage.trans hnext), hpos]
    simp only [SeqPos.index, SeqPos.turnsLeft] at hindex ⊢
    split <;> omega
  · rw [State.turnsLeft_exhausted (hstage.trans hnext)]
    exact s.pos.two_le_turnsLeft

theorem State.turnsLeft_beginSubframe {s : State} (h : s.stage = .boundary) (hj : s.pos.j = 0) (ci sf : Nibble) :
    (beginSubframe ci sf s).turnsLeft < s.turnsLeft := by
  rw [State.turnsLeft_boundary h, if_pos hj, State.turnsLeft_fetch (beginSubframe_stage ci sf s), beginSubframe_pos]
  omega

/-- An instruction that reads first goes on with the call only by what it loads. -/
theorem turnsLeft_of_memReads {s t : State} {reads : List (Nat × Nat)} {load : State → State}
    (hload : (load (s.afterReads reads)).turnsLeft < s.turnsLeft)
    (ht : s.memReads reads (fun u => .next (load u)) = .next t) (hb : t.status = .busy) : t.turnsLeft < s.turnsLeft := by
  obtain ⟨-, rfl⟩ | ⟨-, made, a, n, rfl⟩ := State.memReads_next ht
  · exact hload
  · cases hb

theorem turnsLeft_of_hdr {s t : State} (h : s.stage = .header) {cb sb : Word} {h1 h2 : Half}
    (ht : exec (.hdr cb sb h1 h2) s = .next t) (hb : t.status = .busy) : t.turnsLeft < s.turnsLeft := by
  refine turnsLeft_of_memReads (load := loadOperands (.hdr cb sb h1 h2)) ?_ ht hb
  rw [State.turnsLeft_header h, State.turnsLeft_boundary rfl]
  change (if s.pos.j = 0 then s.pos.turnsLeft + 2 else s.pos.turnsLeft + 1) < s.pos.turnsLeft + 3
  split <;> omega

theorem turnsLeft_of_nibw {s t : State} (h : s.stage = .fetch ∨ (s.stage = .boundary ∧ s.pos.j ≠ 0)) {w : Word}
    (ht : exec (.nibw w) s = .next t) (hb : t.status = .busy) : t.turnsLeft < s.turnsLeft := by
  have hleft : s.turnsLeft = s.pos.turnsLeft + 1 := by
    rcases h with h | ⟨h, hj⟩
    · exact State.turnsLeft_fetch h
    · rw [State.turnsLeft_boundary h, if_neg hj]
  refine turnsLeft_of_memReads (load := loadOperands (.nibw w)) ?_ ht hb
  rw [hleft]
  exact Nat.lt_succ_self s.pos.turnsLeft

/-- R123: a turn of the decoder that does not end the call leaves fewer of them. -/
theorem turnsLeft_of_decoderTurn {s t : State} (hb : s.status = .busy) (ht : decoderTurn s = .next t)
    (hb' : t.status = .busy) : t.turnsLeft < s.turnsLeft := by
  rcases decoderTurn_cases hb with
    ⟨hstage, hturn⟩ | ⟨hstage, -, hj, hturn⟩ | ⟨hstage, hturn⟩ | ⟨hstage, -, hturn⟩ | ⟨-, hturn⟩
  · exact turnsLeft_of_hdr hstage (hturn.symm.trans ht) hb'
  · obtain rfl := Host.Outcome.next.inj (hturn.symm.trans ht)
    exact State.turnsLeft_beginSubframe hstage hj _ _
  · exact turnsLeft_of_nibw (hstage.imp_right fun ⟨h, _, hj⟩ => ⟨h, hj⟩) (hturn.symm.trans ht) hb'
  · obtain rfl := Host.Outcome.next.inj (hturn.symm.trans ht)
    exact State.turnsLeft_takeSample hstage _
  · obtain rfl := Host.Outcome.next.inj (hturn.symm.trans ht)
    cases hb'

/-! The host's tape -/

@[simp] theorem loadOperands_tape (i : Instr) (s : State) : (loadOperands i s).tape = s.tape := by
  cases i <;> rfl

@[simp] theorem State.afterReads_tape (s : State) (reads : List (Nat × Nat)) : (s.afterReads reads).tape = s.tape := rfl

theorem exec_tape {i : Instr} {s t : State} (h : exec i s = .next t) : t.tape = s.tape := by
  cases execResult_of_exec h <;> simp

theorem decoderTurn_tape {s t : State} (h : decoderTurn s = .next t) : t.tape = s.tape := by
  rcases decoderTurn_next h with ⟨-, rfl⟩ | ⟨-, raw, -, hexec⟩ | ⟨-, -, rfl⟩
  · rfl
  · exact exec_tape hexec
  · rfl

/-- In a call the host's turn ends it or leaves the decoder where it stands (R121, R340). -/
theorem hostTurn_keepsPlace {ev : HostEvent} {s t : State} (hb : s.status = .busy) (h : hostTurn ev s = .next t)
    (hb' : t.status = .busy) : t.turnsLeft = s.turnsLeft ∧ t.tape = s.tape := by
  cases ev with
  | command c =>
    obtain ⟨r, -, hexec⟩ := exec_decode_refused (s.not_accepts_of_busy hb c)
    obtain rfl := Host.Outcome.next.inj (hexec.symm.trans h)
    exact ⟨rfl, rfl⟩
  | reset =>
    obtain rfl := Host.Outcome.next.inj h
    cases hb'
  | storeByte | dropByte | storeSlot =>
    obtain rfl := Host.Outcome.next.inj h
    exact ⟨rfl, rfl⟩

/-! The wait for the end of a call -/

/-- Every step of a call ends it, or takes an entry off the tape or a turn off those left. -/
theorem step_progress {s t : State} (hb : s.status = .busy) (ht : step s = .next t) (hb' : t.status = .busy) :
    t.turnsLeft + t.tape.length < s.turnsLeft + s.tape.length := by
  rcases step_cases s with ⟨ev, rest, htape, hstep⟩ | ⟨-, hstep⟩
  · obtain ⟨hleft, hrest⟩ := hostTurn_keepsPlace (s := { s with tape := rest }) hb (hstep.symm.trans ht) hb'
    have hsame : ({ s with tape := rest } : State).turnsLeft = s.turnsLeft := rfl
    rw [hleft, hsame, hrest, htape, List.length_cons]
    exact Nat.lt_succ_self _
  · have hleft : t.turnsLeft < s.turnsLeft := turnsLeft_of_decoderTurn (s := s.popped) hb (hstep.symm.trans ht) hb'
    have htape : t.tape = s.tape.tail := decoderTurn_tape (s := s.popped) (hstep.symm.trans ht)
    rw [htape, List.length_tail]
    omega

/-- `k` steps lead from `s` to `u`, the first state in which no call is in progress. -/
def State.EndsAt (s : State) (k : Nat) (u : State) : Prop :=
  (∀ j < k, ∃ w, Host.Core.run Sys2Proof.core j s = .next w ∧ w.status = .busy) ∧
    Host.Core.run Sys2Proof.core k s = .next u ∧ u.status ≠ .busy

theorem State.endsAt_zero {s : State} (h : s.status ≠ .busy) : s.EndsAt 0 s := ⟨nofun, rfl, h⟩

theorem State.EndsAt.succ {s t u : State} {k : Nat} (hb : s.status = .busy) (hstep : step s = .next t)
    (h : t.EndsAt k u) : s.EndsAt (k + 1) u := by
  obtain ⟨hbefore, hrun, hover⟩ := h
  refine ⟨fun j hj => ?_, (core_run_succ hstep k).trans hrun, hover⟩
  cases j with
  | zero => exact ⟨s, rfl, hb⟩
  | succ j =>
    rw [core_run_succ hstep j]
    exact hbefore j (Nat.lt_of_succ_lt_succ hj)

theorem waitFuel_busy {s t : State} (hb : s.status = .busy) (hstep : step s = .next t) (fuel : Nat) :
    waitFuel (fuel + 1) s = waitFuel fuel t := by
  simp [waitFuel, State.callOver, hb, hstep]

/-- Enough fuel for the turns and the tape left reaches the end of the call. -/
theorem waitFuel_endsAt (fuel : Nat) (s : State) (h : s.status = .busy → s.turnsLeft + s.tape.length ≤ fuel) :
    ∃ k u, k ≤ fuel ∧ s.EndsAt k u ∧ waitFuel fuel s = .next u := by
  induction fuel generalizing s with
  | zero =>
    have hover : s.status ≠ .busy := fun hb => by
      have hpos := s.turnsLeft_range
      have hfuel := h hb
      omega
    exact ⟨0, s, le_rfl, State.endsAt_zero hover, rfl⟩
  | succ fuel ih =>
    by_cases hb : s.status = .busy
    · obtain ⟨t, hstep⟩ := everyStepAnswersNext s
      have hfuel := h hb
      obtain ⟨k, u, hk, hends, hwait⟩ := ih t fun hb' => by
        have hprogress := step_progress hb hstep hb'
        omega
      exact ⟨k + 1, u, Nat.succ_le_succ hk, hends.succ hb hstep, (waitFuel_busy hb hstep fuel).trans hwait⟩
    · exact ⟨0, s, Nat.zero_le _, State.endsAt_zero hb, waitFuel_callOver _ (s.callOver_eq_true.mpr hb)⟩

theorem State.awaitCall_endsAt (s : State) :
    ∃ k u, k ≤ callSteps + s.tape.length ∧ s.EndsAt k u ∧ s.awaitCall = .next u :=
  waitFuel_endsAt _ s fun _ => Nat.add_le_add_right s.turnsLeft_range.2 _

/-! The loop -/

/-- One round of the host's loop: a `DECODE`, the end of its call, and a stop or the rest of the range. -/
theorem runRange_pos {base out sp first count : Nat} {s t u : State} (h : 0 < count)
    (ht : exec (.decode base out sp first (rangeChunk first count)) s = .next t) (hu : t.awaitCall = .next u) :
    runRange base out sp first count s = if u.status = .fault then .next u else
      runRange base (out + rangeChunk first count * sp) sp (first + rangeChunk first count)
        (count - rangeChunk first count) u := by
  rw [runRange, decodeRange_pos base out sp first h]
  exact issueCommands_cons _ ht hu

/-- Settles O50: the round of `runRange_pos`, whose wait has the fuel for the call and the tape. -/
theorem rangeLoopStopsAtAFault : Obligations.RangeLoopStopsAtAFault := by
  refine ⟨fun s base out sp first => rfl, fun s base out sp first count n hpos hn => ?_⟩
  replace hn : n = rangeChunk first count := hn
  subst hn
  obtain ⟨t, ht⟩ := exec_answers (.decode base out sp first (rangeChunk first count)) s
  obtain ⟨k, u, hk, ⟨hbefore, hrun, hover⟩, hwait⟩ := t.awaitCall_endsAt
  have hsteps : k ≤ 300 + s.tape.length := by
    rw [exec_tape ht] at hk
    unfold callSteps at hk
    omega
  have hround := runRange_pos hpos ht hwait
  refine ⟨rangeChunk_fills, t, k, u, ht, hsteps, hbefore, hrun, hover, fun hfault => ?_, fun hgoes => ?_⟩
  · rw [hround, if_pos hfault]
  · rw [hround, if_neg hgoes]

end Sys2Proof.Machine
end

section
/-! PROOFS. `DECODE` (40_decode_command.md): the decoder's turn at each place of R250's loop, the end of a call (R120, R123), and the
command with count 0 (R124). -/

namespace Sys2Proof.Machine

/-! The decoder's turn, place by place (R250) -/

section
variable {s : State} (hb : s.status = .busy)
include hb

theorem decoderTurn_header (hstage : s.stage = .header) : decoderTurn s = exec (decodeHeader s.headerBits) s := by
  simpa [hstage] using decoderTurn_cases hb

theorem decoderTurn_descriptor (hstage : s.stage = .boundary) (hq : s.quotaOpen = true) (hj : s.pos.j = 0) :
    decoderTurn s = .next (beginSubframe (s.coefIndex s.pos.i.val) (s.shiftFactor s.pos.i.val) s) := by
  simpa [hstage, hq, hj] using decoderTurn_cases hb

theorem decoderTurn_word (hstage : s.stage = .fetch ∨ (s.stage = .boundary ∧ s.quotaOpen = true ∧ s.pos.j ≠ 0)) :
    decoderTurn s = exec (.nibw s.wordBits) s := by
  rcases hstage with hstage | ⟨hstage, hq, hj⟩
  · simpa [hstage] using decoderTurn_cases hb
  · simpa [hstage, hq, hj] using decoderTurn_cases hb

theorem decoderTurn_nibble (hstage : s.stage = .nibble) (hq : s.quotaOpen = true) :
    decoderTurn s = .next (s.takeSample (s.datapath s.currentNibble).clamped) := by
  simpa [hstage, hq] using decoderTurn_cases hb

theorem decoderTurn_finish
    (hstop : s.stage = .exhausted ∨ ((s.stage = .boundary ∨ s.stage = .nibble) ∧ s.quotaOpen = false)) :
    decoderTurn s = .next s.finish := by
  rcases hstop with hstage | ⟨hstage | hstage, hq⟩
  · simpa [hstage] using decoderTurn_cases hb
  · simpa [hstage, hq] using decoderTurn_cases hb
  · simpa [hstage, hq] using decoderTurn_cases hb

end

theorem State.quotaOpen_eq_false (s : State) : s.quotaOpen = false ↔ s.samplesToDo ≤ s.samplesDone := by
  simp [State.quotaOpen]

/-- Settles O11: at each of the three places the decoder's turn is `State.finish`. -/
theorem stopEndsTheCallInDone : Obligations.StopEndsTheCallInDone := by
  intro s hsilent hb hstop
  refine ⟨s.popped.finish, (step_silent hsilent).trans (decoderTurn_finish hb ?_), rfl, rfl, rfl, rfl, rfl⟩
  exact hstop.imp_right fun ⟨hstage, hquota⟩ => ⟨hstage, s.quotaOpen_eq_false.mpr hquota⟩

/-! Runs the host leaves alone -/

/-- With no entry on the tape the step is the decoder's turn. -/
theorem step_of_tape_nil {s : State} (h : s.tape = []) : step s = decoderTurn s := by
  simp only [step, h]

theorem step_tape_nil {s t : State} (h : s.tape = []) (ht : step s = .next t) : t.tape = [] := by
  rw [step_of_tape_nil h] at ht
  rw [decoderTurn_tape ht, h]

/-- What every step keeps holds after any number of steps. -/
theorem core_run_keeps {P : State → Prop} (hkeep : ∀ {s t : State}, P s → step s = .next t → P t) {k : Nat} {s t : State}
    (h : P s) (hrun : Host.Core.run Sys2Proof.core k s = .next t) : P t := by
  induction k generalizing s with
  | zero =>
    obtain rfl := Host.Outcome.next.inj hrun
    exact h
  | succ k ih =>
    obtain ⟨u, hu⟩ := everyStepAnswersNext s
    exact ih (hkeep h hu) ((core_run_succ hu k).symm.trans hrun)

/-- R35: only a reset leads to `IDLE`. -/
theorem decoderTurn_not_idle {s t : State} (h : s.status ≠ .idle) (ht : decoderTurn s = .next t) : t.status ≠ .idle := by
  rcases decoderTurn_next ht with ⟨-, rfl⟩ | ⟨-, raw, -, hexec⟩ | ⟨-, -, rfl⟩
  · exact h
  · rcases exec_status hexec with hstatus | ⟨-, -, hstatus⟩ | ⟨-, hstatus⟩
    · rwa [hstatus]
    · simp [hstatus]
    · simp [hstatus]
  · simp

/-- Started, and left alone by the host from now on. -/
def State.LeftAlone (s : State) : Prop := s.tape = [] ∧ s.status ≠ .idle

theorem State.LeftAlone.step {s t : State} (h : s.LeftAlone) (ht : step s = .next t) : t.LeftAlone := by
  obtain ⟨htape, hidle⟩ := h
  exact ⟨step_tape_nil htape ht, decoderTurn_not_idle hidle ((step_of_tape_nil htape).symm.trans ht)⟩

/-- Settles O13: the wait reaches the end of the call within its fuel, and no step the decoder makes leads to `IDLE`. -/
theorem everyCallEnds : Obligations.EveryCallEnds := by
  intro s hb htape
  obtain ⟨k, u, hk, ⟨-, hrun, hover⟩, -⟩ := s.awaitCall_endsAt
  have hsteps : k ≤ 300 := by
    rw [htape] at hk
    exact hk.trans (by decide)
  obtain ⟨-, hidle⟩ : u.LeftAlone := core_run_keeps State.LeftAlone.step ⟨htape, by simp [hb]⟩ hrun
  refine ⟨k, hsteps, u, hrun, ?_⟩
  cases hstatus : u.status with
  | idle => exact absurd hstatus hidle
  | busy => exact absurd hstatus hover
  | done => exact .inl rfl
  | fault => exact .inr rfl

/-! `samples_to_do = 0` (R124) -/

/-- Consecutive bytes are readable where both parts of them are. -/
theorem Memory.readable_add (m : List Host.Cell) (a n k : Nat) :
    Memory.readable m a (n + k) = (Memory.readable m a n && Memory.readable m (a + n) k) := by
  induction n generalizing a with
  | zero => simp [Memory.readable]
  | succ n ih =>
    rw [Nat.succ_add, Memory.readable, ih, Memory.readable, Bool.and_assoc, Nat.add_assoc a 1 n, Nat.add_comm 1 n]

/-- The four reads of `HDR` are the header's twelve bytes (R92, R150). -/
theorem State.headerReads_readable (s : State) :
    (∀ r ∈ s.headerReads, Memory.readable s.source r.1 r.2 = true) ↔
      Memory.readable s.source s.blockAddr 12 = true := by
  rw [show 12 = 4 + (4 + (2 + 2)) from rfl, Memory.readable_add, Memory.readable_add, Memory.readable_add]
  simp [State.headerReads, Nat.add_assoc]

/-- A failed read changes no slot of a call that writes none. -/
theorem State.takeReadFault_noWindow {s : State} (h : s.windowSize = 0) (a n : Nat) :
    (s.takeReadFault a n).outBuf = s.outBuf := by
  rw [State.takeReadFault_outBuf, h, freeSlots]

/-- The step at a call's start, where the header can be read (R150). -/
theorem step_header_ok {t : State} (hb : t.status = .busy) (htape : t.tape = []) (hstage : t.stage = .header)
    (hread : ∀ r ∈ t.headerReads, Memory.readable t.source r.1 r.2 = true) :
    ∃ cb sb h1 h2, step t = .next (loadOperands (.hdr cb sb h1 h2) (t.afterReads t.headerReads)) :=
  ⟨_, _, _, _, (step_of_tape_nil htape).trans ((decoderTurn_header hb hstage).trans (exec_hdr_ok t _ _ _ _ hread))⟩

/-- R124: in a call for no sample the step after a header that was loaded is the call's end. -/
theorem core_run_header_finish {t : State} (hb : t.status = .busy) (htape : t.tape = []) (hstage : t.stage = .header)
    (hquota : t.samplesToDo ≤ t.samplesDone) (hread : ∀ r ∈ t.headerReads, Memory.readable t.source r.1 r.2 = true) :
    ∃ u, Host.Core.run Sys2Proof.core 2 t = .next u ∧ u.status = .done ∧ u.samplesWritten = t.samplesDone ∧
      u.outBuf = t.outBuf ∧ u.readLog = t.readLog ++ t.headerReads := by
  obtain ⟨cb, sb, h1, h2, hheader⟩ := step_header_ok hb htape hstage hread
  obtain ⟨u, hend, hstatus, hwritten, hbuf, -, hlog⟩ :=
    stopEndsTheCallInDone (loadOperands (.hdr cb sb h1 h2) (t.afterReads t.headerReads)) (.inl htape) hb
      (.inr ⟨.inl rfl, hquota⟩)
  exact ⟨u, (core_run_succ hheader 1).trans (core_run_succ hend 0), hstatus, hwritten, hbuf, hlog⟩

/-- R124, R305: in a call that writes no slot a header that cannot be read ends it with every slot as it was. -/
theorem core_run_header_fault {t : State} (hb : t.status = .busy) (htape : t.tape = []) (hstage : t.stage = .header)
    (hwindow : t.windowSize = 0) (hread : ¬ ∀ r ∈ t.headerReads, Memory.readable t.source r.1 r.2 = true) :
    ∃ u, Host.Core.run Sys2Proof.core 1 t = .next u ∧ u.status = .fault ∧ u.outBuf = t.outBuf := by
  obtain ⟨u, hu⟩ := everyStepAnswersNext t
  have hturn := ((step_of_tape_nil htape).trans (decoderTurn_header hb hstage)).symm.trans hu
  obtain ⟨hall, -⟩ | ⟨-, made, a, n, rfl⟩ := State.memReads_next (load := loadOperands (decodeHeader t.headerBits)) hturn
  · exact absurd hall hread
  · exact ⟨_, core_run_succ hu 0, rfl, State.takeReadFault_noWindow (s := t.afterReads made) hwindow a n⟩

/-- Settles O44: the first step is `HDR`; when it has loaded, the quota is met at the first stop test, and when one of its reads
fails the window it frees is empty. -/
theorem zeroQuotaReadsTheHeaderOnly : Obligations.ZeroQuotaReadsTheHeaderOnly := by
  intro s base out spacing first a hacc htape ha
  subst ha
  refine ⟨s.startCall ⟨base, out, spacing, first, 0⟩, exec_decode_accepted hacc, fun hread => ?_, fun hread => ?_⟩
  · exact core_run_header_finish rfl htape rfl le_rfl ((State.headerReads_readable _).mpr hread)
  · refine core_run_header_fault rfl htape rfl (Nat.zero_min _) fun hall => ?_
    exact Bool.false_ne_true (hread.symm.trans ((State.headerReads_readable _).mp hall))

end Sys2Proof.Machine
end

section
/-! PROOFS. `DECODE` (40_decode_command.md), R125: two calls of one command on one source run in lockstep, whatever came before. -/

namespace Sys2Proof.Machine

/-! The window of a call (R305) -/

/-- The slots a call may write: `size` of them from `slot` on, `spacing` apart. -/
structure Window where
  slot    : Nat
  spacing : Nat
  size    : Nat

def State.window (s : State) : Window := ⟨s.outSlot, s.channelSpacing, s.windowSize⟩

def Window.Outside (w : Window) (k : Nat) : Prop := ∀ m < w.size, k ≠ w.slot + m * w.spacing

/-- The first `n` slots of the window have values, the same in both buffers. -/
def Window.SameSlots (w : Window) (n : Nat) (buf buf' : List (Nat × Half)) : Prop :=
  ∀ m < n, ∃ v, Memory.read buf (w.slot + m * w.spacing) = some v ∧ Memory.read buf' (w.slot + m * w.spacing) = some v

/-- One more slot written in both with one value. -/
theorem Window.SameSlots.write {w : Window} {n : Nat} {buf buf' : List (Nat × Half)} (h : w.SameSlots n buf buf') (v : Half) :
    w.SameSlots (n + 1) (Memory.write buf (w.slot + n * w.spacing) v) (Memory.write buf' (w.slot + n * w.spacing) v) := by
  intro m hm
  by_cases hslot : w.slot + m * w.spacing = w.slot + n * w.spacing
  · exact ⟨v, by simp [hslot], by simp [hslot]⟩
  · rw [Memory.read_write_other _ _ hslot, Memory.read_write_other _ _ hslot]
    refine h m (Nat.lt_of_le_of_ne (Nat.le_of_lt_succ hm) ?_)
    rintro rfl
    exact hslot rfl

/-! The counters of a call (R251 to R256) -/

/-- `SAMPLES_DONE` counts the window's samples among the nibbles decoded, up to the quota, and `G` agrees with the place. -/
structure State.Counted (s : State) : Prop where
  done  : s.samplesDone = min s.samplesToDo (s.g - s.intraOffset)
  place : s.placeOk

theorem State.g_le_of_placeOk {s : State} (h : s.placeOk) : s.g ≤ 256 := by
  have hlt := s.pos.index_lt
  cases hstage : s.stage with
  | header => exact ((State.placeOk_header hstage).mp h).2.le.trans (Nat.zero_le _)
  | boundary => exact ((State.placeOk_boundary hstage).mp h).2.le.trans hlt.le
  | fetch => exact ((State.placeOk_fetch hstage).mp h).2.2.le.trans hlt.le
  | nibble => exact ((State.placeOk_nibble hstage).mp h).le.trans hlt.le
  | exhausted => exact ((State.placeOk_exhausted hstage).mp h).2.le

/-- R252: a sample that is written goes to a slot of the window. -/
theorem State.Counted.lt_windowSize {s : State} (h : s.Counted) (hstage : s.stage = .nibble) (hw : s.writes = true) :
    s.samplesDone < s.windowSize := by
  obtain ⟨hin, hopen⟩ := s.writes_iff.mp hw
  have hg := (State.placeOk_nibble hstage).mp h.place
  have hlt := s.pos.index_lt
  have hdone := h.done
  unfold State.windowSize windowCount blockSamples
  omega

/-- R255, R256: where the loop stops, the window is full. -/
theorem State.Counted.eq_windowSize {s : State} (h : s.Counted)
    (hstop : s.stage = .exhausted ∨ ((s.stage = .boundary ∨ s.stage = .nibble) ∧ s.quotaOpen = false)) :
    s.samplesDone = s.windowSize := by
  have hg := State.g_le_of_placeOk h.place
  have hdone := h.done
  unfold State.windowSize windowCount blockSamples
  rcases hstop with hstage | ⟨-, hq⟩
  · obtain ⟨-, hlast⟩ := (State.placeOk_exhausted hstage).mp h.place
    omega
  · have hmet := s.quotaOpen_eq_false.mp hq
    omega

theorem State.Counted.takeSample {s : State} (h : s.Counted) (hstage : s.stage = .nibble) (hq : s.quotaOpen = true)
    (v : Int) : (s.takeSample v).Counted := by
  refine ⟨?_, State.placeOk_takeSample ((State.placeOk_nibble hstage).mp h.place) v⟩
  have hopen : s.samplesDone < s.samplesToDo := by simpa [State.quotaOpen] using hq
  have hdone := h.done
  simp only [State.takeSample_samplesDone, State.takeSample_g, State.takeSample_intraOffset, State.takeSample_samplesToDo,
    State.writes_iff]
  split <;> omega

theorem State.Counted.hdr {s : State} (h : s.Counted) (hstage : s.stage = .header) (cb sb : Word) (h1 h2 : Half)
    (reads : List (Nat × Nat)) : (loadOperands (.hdr cb sb h1 h2) (s.afterReads reads)).Counted := by
  obtain ⟨hpos, hg⟩ := (State.placeOk_header hstage).mp h.place
  exact ⟨h.done, congrArg SeqPos.k hpos, hg.trans (congrArg SeqPos.index hpos).symm⟩

theorem State.Counted.nibw {s : State} (h : s.Counted)
    (hstage : s.stage = .fetch ∨ (s.stage = .boundary ∧ s.quotaOpen = true ∧ s.pos.j ≠ 0)) (word : Word)
    (reads : List (Nat × Nat)) : (loadOperands (.nibw word) (s.afterReads reads)).Counted := by
  refine ⟨h.done, ?_⟩
  rcases hstage with hstage | ⟨hstage, -, -⟩
  · exact ((State.placeOk_fetch hstage).mp h.place).2.2
  · exact ((State.placeOk_boundary hstage).mp h.place).2

theorem State.Counted.beginSubframe {s : State} (h : s.Counted) (hstage : s.stage = .boundary) (hj : s.pos.j = 0)
    (ci sf : Nibble) : (beginSubframe ci sf s).Counted :=
  ⟨h.done, hj, (State.placeOk_boundary hstage).mp h.place⟩

/-! Slots outside the window -/

theorem State.takeSample_outside {s : State} (h : s.Counted) (hstage : s.stage = .nibble) (v : Int) {k : Nat}
    (hk : s.window.Outside k) : Memory.read (s.takeSample v).outBuf k = Memory.read s.outBuf k := by
  rw [State.takeSample_outBuf]
  split
  next hw => exact Memory.read_write_other _ _ (hk s.samplesDone (h.lt_windowSize hstage hw))
  next => rfl

/-! Two calls that stand at the same place -/

/-- `v` stands where `u` does in a call of the same command on the same source: all registers agree that an instruction has loaded by
then, and what the call started with. -/
structure State.SameCall (u v : State) : Prop where
  status         : v.status = u.status
  source         : v.source = u.source
  outSlot        : v.outSlot = u.outSlot
  channelSpacing : v.channelSpacing = u.channelSpacing
  samplesToDo    : v.samplesToDo = u.samplesToDo
  intraOffset    : v.intraOffset = u.intraOffset
  blockAddr      : v.blockAddr = u.blockAddr
  pos            : v.pos = u.pos
  g              : v.g = u.g
  samplesDone    : v.samplesDone = u.samplesDone
  stage          : v.stage = u.stage
  /-- from `HDR` on (R24) -/
  descriptors    : u.stage ≠ .header → v.coefBits = u.coefBits ∧ v.shiftBits = u.shiftBits
  /-- from `HDR` on (R21, R22) -/
  history        : u.stage ≠ .header → v.hist1 = u.hist1 ∧ v.hist2 = u.hist2
  /-- from the descriptor on (R26) -/
  subframe       : u.subframeBegun → v.coef1 = u.coef1 ∧ v.coef2 = u.coef2 ∧ v.shift = u.shift
  /-- from `NIBW` on (R27) -/
  word           : u.stage = .nibble → v.nibWord = u.nibWord

namespace State.SameCall

variable {u v : State} (h : u.SameCall v)
include h

theorem window : v.window = u.window := by
  simp only [State.window, State.windowSize, h.outSlot, h.channelSpacing, h.intraOffset, h.samplesToDo]

theorem quotaOpen : v.quotaOpen = u.quotaOpen := by
  simp only [State.quotaOpen, h.samplesDone, h.samplesToDo]

theorem writes : v.writes = u.writes := by
  simp only [State.writes, State.inWindow, h.intraOffset, h.g, h.quotaOpen]

theorem counted (hu : u.Counted) : v.Counted := by
  obtain ⟨hdone, hplace⟩ := hu
  refine ⟨?_, ?_⟩
  · rw [h.samplesDone, h.samplesToDo, h.g, h.intraOffset, hdone]
  · simpa only [State.placeOk, h.stage, h.pos, h.g] using hplace

/-- At a nibble both compute the same sample (R224). -/
theorem datapath (hstage : u.stage = .nibble) : v.datapath v.currentNibble = u.datapath u.currentNibble := by
  obtain ⟨hhist1, hhist2⟩ := h.history (by simp [hstage])
  obtain ⟨hcoef1, hcoef2, hshift⟩ := h.subframe (.inr (.inl hstage))
  simp only [State.datapath, State.currentNibble, hhist1, hhist2, hcoef1, hcoef2, hshift, h.word hstage, h.pos]

/-- The header bits and the word bits are those of the common source. -/
theorem headerBits : v.headerBits = u.headerBits := by
  simp only [State.headerBits, h.source, h.blockAddr]

theorem nibbleWordAddr : v.nibbleWordAddr = u.nibbleWordAddr := by
  simp only [State.nibbleWordAddr, h.blockAddr, h.pos]

theorem wordBits : v.wordBits = u.wordBits := by
  simp only [State.wordBits, h.source, h.nibbleWordAddr]

theorem readsOf (i : Instr) : v.readsOf i = u.readsOf i := by
  simp only [State.readsOf, State.headerReads, State.nibbleReads, h.nibbleWordAddr, h.blockAddr]

/-! What both do keeps them at the same place -/

theorem hdr (hj : u.pos.j = 0) (cb sb : Word) (h1 h2 : Half) (reads : List (Nat × Nat)) :
    (loadOperands (.hdr cb sb h1 h2) (u.afterReads reads)).SameCall
      (loadOperands (.hdr cb sb h1 h2) (v.afterReads reads)) :=
  { h with
    stage := rfl
    descriptors := fun _ => ⟨rfl, rfl⟩
    history := fun _ => ⟨rfl, rfl⟩
    subframe := fun hbegun => by simp [State.subframeBegun, loadOperands, State.afterReads, hj] at hbegun
    word := nofun }

theorem nibw (hstage : u.stage = .fetch ∨ (u.stage = .boundary ∧ u.quotaOpen = true ∧ u.pos.j ≠ 0)) (word : Word)
    (reads : List (Nat × Nat)) :
    (loadOperands (.nibw word) (u.afterReads reads)).SameCall (loadOperands (.nibw word) (v.afterReads reads)) := by
  have hfacts : u.stage ≠ .header ∧ u.subframeBegun := by
    rcases hstage with hstage | ⟨hstage, -, hj⟩
    · exact ⟨by simp [hstage], .inl hstage⟩
    · exact ⟨by simp [hstage], .inr (.inr ⟨hstage, hj⟩)⟩
  obtain ⟨hloaded, hbegun⟩ := hfacts
  exact { h with
    stage := rfl
    descriptors := fun _ => h.descriptors hloaded
    history := fun _ => h.history hloaded
    subframe := fun _ => h.subframe hbegun
    word := fun _ => rfl }

theorem beginSubframe (hstage : u.stage = .boundary) (ci sf : Nibble) :
    (beginSubframe ci sf u).SameCall (beginSubframe ci sf v) := by
  have hloaded : u.stage ≠ .header := by simp [hstage]
  exact { h with
    stage := rfl
    descriptors := fun _ => h.descriptors hloaded
    history := fun _ => h.history hloaded
    subframe := fun _ => ⟨rfl, rfl, rfl⟩
    word := nofun }

theorem takeSample (hstage : u.stage = .nibble) (x : Int) : (u.takeSample x).SameCall (v.takeSample x) := by
  have hloaded : u.stage ≠ .header := by simp [hstage]
  rw [State.takeSample_eq, State.takeSample_eq]
  exact { h with
    pos := congrArg SeqPos.next h.pos
    g := congrArg (· + 1) h.g
    samplesDone := by simp only [h.writes, h.samplesDone]
    stage := congrArg SeqPos.nextStage h.pos
    descriptors := fun _ => h.descriptors hloaded
    history := fun _ => ⟨rfl, (h.history hloaded).1⟩
    subframe := fun _ => h.subframe (.inr (.inl hstage))
    word := fun _ => h.word hstage }

end State.SameCall

/-- R20, R125: an accepted command leaves two decoders on one source at the same place, with nothing loaded. -/
theorem State.sameCall_startCall {s t : State} (hsource : s.source = t.source) (c : Command) :
    (s.startCall c).SameCall (t.startCall c) where
  status := rfl
  source := hsource.symm
  outSlot := rfl
  channelSpacing := rfl
  samplesToDo := rfl
  intraOffset := rfl
  blockAddr := rfl
  pos := rfl
  g := rfl
  samplesDone := rfl
  stage := rfl
  descriptors := fun hstage => absurd rfl hstage
  history := fun hstage => absurd rfl hstage
  subframe := fun hbegun => by simp [State.subframeBegun] at hbegun
  word := nofun

/-! One turn of both -/

/-- The pairs of next states that two decoders at the same place of a call answer. -/
inductive State.LockStep (u v : State) : State → State → Prop where
  | header (hstage : u.stage = .header) (cb sb : Word) (h1 h2 : Half) (reads : List (Nat × Nat)) :
    u.LockStep v (loadOperands (.hdr cb sb h1 h2) (u.afterReads reads)) (loadOperands (.hdr cb sb h1 h2) (v.afterReads reads))
  | word (hstage : u.stage = .fetch ∨ (u.stage = .boundary ∧ u.quotaOpen = true ∧ u.pos.j ≠ 0)) (word : Word)
      (reads : List (Nat × Nat)) :
    u.LockStep v (loadOperands (.nibw word) (u.afterReads reads)) (loadOperands (.nibw word) (v.afterReads reads))
  | faulted (made : List (Nat × Nat)) (a n : Nat) :
    u.LockStep v ((u.afterReads made).takeReadFault a n) ((v.afterReads made).takeReadFault a n)
  | begun (hstage : u.stage = .boundary) (hj : u.pos.j = 0) (ci sf : Nibble) :
    u.LockStep v (beginSubframe ci sf u) (beginSubframe ci sf v)
  | sampled (hstage : u.stage = .nibble) (hq : u.quotaOpen = true) (x : Int) :
    u.LockStep v (u.takeSample x) (v.takeSample x)
  | finished (hstop : u.stage = .exhausted ∨ ((u.stage = .boundary ∨ u.stage = .nibble) ∧ u.quotaOpen = false)) :
    u.LockStep v u.finish v.finish

/-- Two decoders that read at the same place of one source both load, or both fault at the same read (R303). -/
theorem State.SameCall.exec_reads {u v : State} (h : u.SameCall v) {i : Instr} (hformat : i.format = .h ∨ i.format = .w) :
    (exec i u = .next (loadOperands i (u.afterReads (u.readsOf i))) ∧
      exec i v = .next (loadOperands i (v.afterReads (u.readsOf i)))) ∨
    ∃ made a n, exec i u = .next ((u.afterReads made).takeReadFault a n) ∧
      exec i v = .next ((v.afterReads made).takeReadFault a n) := by
  rw [exec_reads_then_loads hformat u, exec_reads_then_loads hformat v, h.readsOf i]
  rcases u.memReads_cases (u.readsOf i) (fun s => .next (loadOperands i s)) with
    ⟨hall, hrun⟩ | ⟨pre, a, n, post, hreads, hpre, hfail, hrun⟩
  · rw [← h.source] at hall
    exact .inl ⟨hrun, v.memReads_ok _ _ hall⟩
  · rw [← h.source] at hpre hfail
    refine .inr ⟨pre ++ [(a, n)], a, n, hrun, ?_⟩
    rw [hreads]
    exact v.memReads_fault pre post a n _ hpre hfail

/-- Two decoders at the same place of a call take the same turn, in the cases of R250. -/
theorem State.SameCall.lockStep {u v : State} (h : u.SameCall v) (hb : u.status = .busy) :
    ∃ u' v', decoderTurn u = .next u' ∧ decoderTurn v = .next v' ∧ u.LockStep v u' v' := by
  have hb' : v.status = .busy := h.status.trans hb
  rcases decoderTurn_cases hb with
    ⟨hstage, hturn⟩ | ⟨hstage, hq, hj, hturn⟩ | ⟨hstage, hturn⟩ | ⟨hstage, hq, hturn⟩ | ⟨hstop, hturn⟩
  · have hturn' := decoderTurn_header hb' (h.stage.trans hstage)
    rw [h.headerBits] at hturn'
    rcases h.exec_reads (i := decodeHeader u.headerBits) (.inl rfl) with ⟨hu, hv⟩ | ⟨made, a, n, hu, hv⟩
    · exact ⟨_, _, hturn.trans hu, hturn'.trans hv, .header hstage _ _ _ _ _⟩
    · exact ⟨_, _, hturn.trans hu, hturn'.trans hv, .faulted made a n⟩
  · have hturn' := decoderTurn_descriptor hb' (h.stage.trans hstage) (h.quotaOpen.trans hq) (h.pos ▸ hj)
    obtain ⟨hcoef, hshift⟩ := h.descriptors (by simp [hstage])
    rw [State.coefIndex, State.shiftFactor, hcoef, hshift, h.pos] at hturn'
    exact ⟨_, _, hturn, hturn', .begun hstage hj _ _⟩
  · have hturn' : decoderTurn v = _ := decoderTurn_word hb' (by rwa [h.stage, h.quotaOpen, h.pos])
    rw [h.wordBits] at hturn'
    rcases h.exec_reads (i := .nibw u.wordBits) (.inr rfl) with ⟨hu, hv⟩ | ⟨made, a, n, hu, hv⟩
    · exact ⟨_, _, hturn.trans hu, hturn'.trans hv, .word hstage _ _⟩
    · exact ⟨_, _, hturn.trans hu, hturn'.trans hv, .faulted made a n⟩
  · have hturn' := decoderTurn_nibble hb' (h.stage.trans hstage) (h.quotaOpen.trans hq)
    rw [h.datapath hstage] at hturn'
    exact ⟨_, _, hturn, hturn', .sampled hstage hq _⟩
  · exact ⟨_, _, hturn, decoderTurn_finish hb' (by rwa [h.stage, h.quotaOpen]), .finished hstop⟩

/-! What a turn adds to the reads and leaves outside the window -/

/-- From `s` and `t` on, `u` and `v` have asked the same new reads and have every slot outside the window as it was. -/
structure AlikeSince (w : Window) (s t u v : State) : Prop where
  reads   : ∃ new, u.readLog = s.readLog ++ new ∧ v.readLog = t.readLog ++ new
  outside : ∀ k, w.Outside k →
    Memory.read u.outBuf k = Memory.read s.outBuf k ∧ Memory.read v.outBuf k = Memory.read t.outBuf k

theorem AlikeSince.refl (w : Window) (s t : State) : AlikeSince w s t s t :=
  ⟨⟨[], by simp, by simp⟩, fun _ _ => ⟨rfl, rfl⟩⟩

theorem AlikeSince.trans {w : Window} {s t u v u' v' : State} (h : AlikeSince w s t u v) (h' : AlikeSince w u v u' v') :
    AlikeSince w s t u' v' := by
  obtain ⟨⟨new, hu, hv⟩, hout⟩ := h
  obtain ⟨⟨new', hu', hv'⟩, hout'⟩ := h'
  refine ⟨⟨new ++ new', by rw [hu', hu, List.append_assoc], by rw [hv', hv, List.append_assoc]⟩, fun k hk => ?_⟩
  exact ⟨(hout' k hk).1.trans (hout k hk).1, (hout' k hk).2.trans (hout k hk).2⟩

theorem State.LockStep.alikeSince {u v u' v' : State} (hstep : u.LockStep v u' v') (h : u.SameCall v) (hcount : u.Counted) :
    AlikeSince u.window u v u' v' := by
  cases hstep with
  | header _ _ _ _ _ reads | word _ _ reads => exact ⟨⟨reads, rfl, rfl⟩, fun _ _ => ⟨rfl, rfl⟩⟩
  | begun | finished => exact ⟨⟨[], by simp, by simp⟩, fun _ _ => ⟨rfl, rfl⟩⟩
  | faulted made a n =>
    refine ⟨⟨made, rfl, rfl⟩, fun k hk => ⟨?_, ?_⟩⟩
    · exact (u.afterReads made).takeReadFault_outside a n k hk
    · rw [← h.window] at hk
      exact (v.afterReads made).takeReadFault_outside a n k hk
  | sampled hstage hq x =>
    refine ⟨⟨[], by simp, by simp⟩, fun k hk => ⟨State.takeSample_outside hcount hstage x hk, ?_⟩⟩
    rw [← h.window] at hk
    exact State.takeSample_outside (h.counted hcount) (h.stage.trans hstage) x hk

/-! The two calls, from their start to their end -/

/-- Where two calls in lockstep are: both run, both ended in `DONE` with the window full, or both in `FAULT` at the same read. -/
inductive SamePhase (w : Window) (u v : State) : Prop where
  | running (hb : u.status = .busy) (hwindow : u.window = w) (hsame : u.SameCall v) (hcount : u.Counted)
      (hslots : w.SameSlots u.samplesDone u.outBuf v.outBuf)
  | done (hu : u.status = .done) (hv : v.status = .done) (hwritten : u.samplesWritten = v.samplesWritten)
      (hslots : w.SameSlots w.size u.outBuf v.outBuf)
  | faulted (hu : u.status = .fault) (hv : v.status = .fault) (hinfo : u.faultInfo = v.faultInfo)

/-- The slot a `SAMPLE` writes gets one value in both buffers (R253). -/
theorem State.SameCall.sameSlots_takeSample {u v : State} (h : u.SameCall v)
    (hslots : u.window.SameSlots u.samplesDone u.outBuf v.outBuf) (x : Int) :
    u.window.SameSlots (u.takeSample x).samplesDone (u.takeSample x).outBuf (v.takeSample x).outBuf := by
  have hslot : v.nextSlot = u.nextSlot := by
    simp only [State.nextSlot, h.outSlot, h.samplesDone, h.channelSpacing]
  simp only [State.takeSample_samplesDone, State.takeSample_outBuf, h.writes, hslot]
  split
  · exact hslots.write _
  · exact hslots

theorem State.LockStep.samePhase {u v u' v' : State} (hstep : u.LockStep v u' v') (hb : u.status = .busy)
    (h : u.SameCall v) (hcount : u.Counted) (hslots : u.window.SameSlots u.samplesDone u.outBuf v.outBuf) :
    SamePhase u.window u' v' := by
  cases hstep with
  | header hstage cb sb h1 h2 reads =>
    obtain ⟨hpos, -⟩ := (State.placeOk_header hstage).mp hcount.place
    exact .running hb rfl (h.hdr (congrArg SeqPos.j hpos) cb sb h1 h2 reads) (hcount.hdr hstage cb sb h1 h2 reads) hslots
  | word hstage word reads => exact .running hb rfl (h.nibw hstage word reads) (hcount.nibw hstage word reads) hslots
  | begun hstage hj ci sf => exact .running hb rfl (h.beginSubframe hstage ci sf) (hcount.beginSubframe hstage hj ci sf) hslots
  | sampled hstage hq x =>
    have hwindow : (u.takeSample x).window = u.window := by simp [State.window, State.windowSize]
    exact .running ((u.takeSample_status x).trans hb) hwindow (h.takeSample hstage x) (hcount.takeSample hstage hq x)
      (h.sameSlots_takeSample hslots x)
  | finished hstop =>
    rw [hcount.eq_windowSize hstop] at hslots
    exact .done rfl rfl h.samplesDone.symm hslots
  | faulted made a n => exact .faulted rfl rfl (by simp [h.source])

/-- One step of both, in a call or after it. -/
theorem SamePhase.step {w : Window} {u v : State} (h : SamePhase w u v) (hu : u.tape = []) (hv : v.tape = []) :
    ∃ u' v', step u = .next u' ∧ step v = .next v' ∧ SamePhase w u' v' ∧ AlikeSince w u v u' v' := by
  rw [step_of_tape_nil hu, step_of_tape_nil hv]
  cases h with
  | running hb hwindow hsame hcount hslots =>
    subst hwindow
    obtain ⟨u', v', hturn, hturn', hstep⟩ := hsame.lockStep hb
    exact ⟨u', v', hturn, hturn', hstep.samePhase hb hsame hcount hslots, hstep.alikeSince hsame hcount⟩
  | done hdone hdone' hwritten hslots =>
    exact ⟨u, v, decoderTurn_idle (by simp [hdone]), decoderTurn_idle (by simp [hdone']), .done hdone hdone' hwritten hslots,
      .refl w u v⟩
  | faulted hfault hfault' hinfo =>
    exact ⟨u, v, decoderTurn_idle (by simp [hfault]), decoderTurn_idle (by simp [hfault']), .faulted hfault hfault' hinfo,
      .refl w u v⟩

theorem SamePhase.run {w : Window} {u v : State} (h : SamePhase w u v) (hu : u.tape = []) (hv : v.tape = []) (k : Nat) :
    ∃ u' v', Host.Core.run Sys2Proof.core k u = .next u' ∧ Host.Core.run Sys2Proof.core k v = .next v' ∧
      SamePhase w u' v' ∧ AlikeSince w u v u' v' := by
  induction k generalizing u v with
  | zero => exact ⟨u, v, rfl, rfl, h, .refl w u v⟩
  | succ k ih =>
    obtain ⟨u₁, v₁, hstep, hstep', hphase, hsince⟩ := h.step hu hv
    obtain ⟨u', v', hrun, hrun', hphase', hsince'⟩ := ih hphase (step_tape_nil hu hstep) (step_tape_nil hv hstep')
    exact ⟨u', v', (core_run_succ hstep k).trans hrun, (core_run_succ hstep' k).trans hrun', hphase', hsince.trans hsince'⟩

theorem SamePhase.status {w : Window} {u v : State} (h : SamePhase w u v) : u.status = v.status := by
  cases h with
  | running hb hwindow hsame => exact hsame.status.symm
  | done hu hv => exact hu.trans hv.symm
  | faulted hu hv => exact hu.trans hv.symm

theorem SamePhase.of_done {w : Window} {u v : State} (h : SamePhase w u v) (hdone : u.status = .done) :
    u.samplesWritten = v.samplesWritten ∧ w.SameSlots w.size u.outBuf v.outBuf := by
  cases h with
  | running hb => simp [hdone] at hb
  | done hu hv hwritten hslots => exact ⟨hwritten, hslots⟩
  | faulted hu => simp [hdone] at hu

theorem SamePhase.of_fault {w : Window} {u v : State} (h : SamePhase w u v) (hfault : u.status = .fault) :
    u.faultInfo = v.faultInfo := by
  cases h with
  | running hb => simp [hfault] at hb
  | done hu => simp [hfault] at hu
  | faulted hu hv hinfo => exact hinfo

/-- An accepted command starts two calls in lockstep. -/
theorem samePhase_startCall {s t : State} (hsource : s.source = t.source) (c : Command) :
    SamePhase (s.startCall c).window (s.startCall c) (t.startCall c) :=
  .running rfl rfl (State.sameCall_startCall hsource c) ⟨by simp, rfl, rfl⟩ nofun

/-- Settles O51: the two calls start at the same place, and each step takes them to the same place or to the same end. -/
theorem outcomeDependsOnOperandsAndBytesOnly : Obligations.OutcomeDependsOnOperandsAndBytesOnly := by
  intro s t base out spacing first count hs ht hsource hstape httape
  refine ⟨_, _, exec_decode_accepted hs, exec_decode_accepted ht, fun k => ?_⟩
  obtain ⟨u, v, hrun, hrun', hphase, ⟨new, hreads, hreads'⟩, houtside⟩ :=
    (samePhase_startCall hsource ⟨base, out, spacing, first, count⟩).run hstape httape k
  exact ⟨u, v, new, hrun, hrun', hphase.status, hreads, hreads', hphase.of_done, hphase.of_fault, houtside⟩

end Sys2Proof.Machine
end

section
/-! PROOFS. The block locator (41_block_locator.md): the locator registers through a call (R141 to R144), and two names of one block
(R145). -/

namespace Sys2Proof.Machine

/-- No run stops short: every step answers a next state. -/
theorem core_run_answers (k : Nat) (s : State) : ∃ t, Host.Core.run Sys2Proof.core k s = .next t := by
  induction k generalizing s with
  | zero => exact ⟨s, rfl⟩
  | succ k ih =>
    obtain ⟨u, hstep⟩ := everyStepAnswersNext s
    obtain ⟨t, hrun⟩ := ih u
    exact ⟨t, (core_run_succ hstep k).trans hrun⟩

/-! The locator registers in a call (R144) -/

/-- The locator registers hold the block that holds sample `first` of the stream at `base` (R141 to R143). -/
structure State.Located (s : State) (base first : Nat) : Prop where
  index  : s.blockIndex = locateIndex first
  offset : s.intraOffset = locateOffset first
  addr   : s.blockAddr = locateAddr base first

theorem State.located_startCall (s : State) (c : Command) : (s.startCall c).Located c.base c.first := ⟨rfl, rfl, rfl⟩

theorem State.Located.loadOperands {s : State} {base first : Nat} (h : s.Located base first) (i : Instr) :
    (loadOperands i s).Located base first := by
  cases i <;> exact ⟨h.index, h.offset, h.addr⟩

theorem State.Located.takeSample {s : State} {base first : Nat} (h : s.Located base first) (v : Int) :
    (s.takeSample v).Located base first := by
  rw [State.takeSample_eq]
  exact ⟨h.index, h.offset, h.addr⟩

/-- In a call no instruction writes the locator registers: only a `DECODE` that is accepted does, and none is (R121). -/
theorem State.Located.exec {s t : State} {base first : Nat} (h : s.Located base first) (hb : s.status = .busy) {i : Instr}
    (ht : exec i s = .next t) : t.Located base first := by
  cases execResult_of_exec ht with
  | started c hacc => exact absurd hacc (s.not_accepts_of_busy hb c)
  | refused | faulted | begun => exact ⟨h.index, h.offset, h.addr⟩
  | loaded => exact State.Located.loadOperands (s := s.afterReads (s.readsOf i)) ⟨h.index, h.offset, h.addr⟩ i
  | sampled => exact h.takeSample _

theorem State.Located.decoderTurn {s t : State} {base first : Nat} (h : s.Located base first)
    (ht : decoderTurn s = .next t) : t.Located base first := by
  rcases decoderTurn_next ht with ⟨-, rfl⟩ | ⟨hb, raw, -, hexec⟩ | ⟨-, -, rfl⟩
  · exact h
  · exact h.exec hb hexec
  · exact ⟨h.index, h.offset, h.addr⟩

/-- As long as the host is silent, the locator registers are written by no step. -/
theorem State.Located.run {s t : State} {base first k : Nat} (h : s.Located base first) (htape : s.tape = [])
    (hrun : Host.Core.run Sys2Proof.core k s = .next t) : t.Located base first := by
  obtain ⟨-, hlocated⟩ : t.tape = [] ∧ t.Located base first :=
    core_run_keeps (P := fun v => v.tape = [] ∧ v.Located base first)
      (fun ⟨hnil, hv⟩ hstep => ⟨step_tape_nil hnil hstep, hv.decoderTurn ((step_of_tape_nil hnil).symm.trans hstep)⟩)
      ⟨htape, h⟩ hrun
  exact hlocated

/-- Settles O49: the start of the call loads the locator registers, and the decoder's turns leave them alone. -/
theorem locateHoldsThroughTheCall : Obligations.LocateHoldsThroughTheCall := by
  intro s base out spacing first count hacc htape
  refine ⟨_, exec_decode_accepted hacc, rfl, fun k => ?_⟩
  obtain ⟨u, hrun⟩ := core_run_answers k (s.startCall ⟨base, out, spacing, first, count⟩)
  obtain ⟨hindex, hoffset, haddr⟩ := (s.located_startCall _).run htape hrun
  exact ⟨u, hrun, fun _ => ⟨hindex, hoffset, haddr⟩⟩

/-! Two commands that locate one block (R145) -/

theorem locateOffset_inBlock (q r : Nat) : locateOffset (256 * q + r) = locateOffset r :=
  Nat.mul_add_mod 256 q r

theorem locateAddr_inBlock (b q r : Nat) : locateAddr b (256 * q + r) = locateAddr (b + 0x8c * q) r := by
  unfold locateAddr locateIndex blockBytes blockSamples
  omega

/-- The state with another name of the block: the operands `STREAM_BASE` and `FIRST_SAMPLE`, and the `BLOCK_INDEX` they give. -/
def State.withName (s : State) (base first index : Nat) : State :=
  { s with streamBase := base, firstSample := first, blockIndex := index }

/-- Commands that name one block by two names start calls in states that differ in the name alone. -/
theorem State.startCall_otherName (s : State) (b q r out spacing count : Nat) :
    s.startCall ⟨b + 0x8c * q, out, spacing, r, count⟩ =
      (s.startCall ⟨b, out, spacing, 256 * q + r, count⟩).withName (b + 0x8c * q) r (locateIndex r) := by
  simp only [State.startCall, State.withName, locateOffset_inBlock, locateAddr_inBlock]

/-- `f` takes `s` to `t` without a look at the block's name: from any other name it answers `t` but for the name. -/
def IgnoresName (f : State → Host.Outcome State Fault Refusal) (s t : State) : Prop :=
  ∀ base first index, ∃ base' first' index',
    f (s.withName base first index) = .next (t.withName base' first' index')

section
variable {f : State → Host.Outcome State Fault Refusal} {s t : State}

theorem ignoresName_of_kept
    (h : ∀ base first index, f (s.withName base first index) = .next (t.withName base first index)) : IgnoresName f s t :=
  fun base first index => ⟨base, first, index, h base first index⟩

theorem ignoresName_of_overwritten (h : ∀ base first index, f (s.withName base first index) = .next t) : IgnoresName f s t :=
  fun base first index => ⟨t.streamBase, t.firstSample, t.blockIndex, h base first index⟩

end

theorem exec_command_ignoresName {c : Command} {s t : State} (h : exec c.instr s = .next t) :
    IgnoresName (exec c.instr) s t := by
  cases hr : s.refusal c with
  | none =>
    have hacc := (s.refusal_none_iff c).mp hr
    obtain rfl := Host.Outcome.next.inj ((exec_decode_accepted hacc).symm.trans h)
    exact ignoresName_of_overwritten fun base first index => exec_decode_accepted (s := s.withName base first index) hacc
  | some r =>
    obtain rfl := Host.Outcome.next.inj ((exec_decode_of_refusal hr).symm.trans h)
    exact ignoresName_of_kept fun base first index => exec_decode_of_refusal (s := s.withName base first index) hr

theorem loadOperands_withName (i : Instr) (s : State) (base first index : Nat) :
    loadOperands i (s.withName base first index) = (loadOperands i s).withName base first index := by
  cases i <;> rfl

/-- The reads are made at `BLOCK_ADDR`, however the block is named. -/
theorem exec_reads_ignoresName {i : Instr} (hformat : i.format = .h ∨ i.format = .w) {s t : State}
    (h : exec i s = .next t) : IgnoresName (exec i) s t := by
  have hexec := exec_reads_then_loads hformat
  refine ignoresName_of_kept fun base first index => (hexec _).trans ?_
  have hreadsOf : (s.withName base first index).readsOf i = s.readsOf i := rfl
  rw [hreadsOf]
  rcases s.memReads_cases (s.readsOf i) (fun u => .next (loadOperands i u)) with
    ⟨hall, hrun⟩ | ⟨pre, a, n, post, hreads, hpre, hfail, hrun⟩
  · obtain rfl := Host.Outcome.next.inj ((hrun.symm.trans (hexec s).symm).trans h)
    exact ((s.withName base first index).memReads_ok _ _ hall).trans
      (congrArg Host.Outcome.next (loadOperands_withName i (s.afterReads (s.readsOf i)) base first index))
  · obtain rfl := Host.Outcome.next.inj ((hrun.symm.trans (hexec s).symm).trans h)
    rw [hreads]
    exact (s.withName base first index).memReads_fault pre post a n _ hpre hfail

theorem exec_sample_ignoresName (s : State) (n : Nibble) :
    IgnoresName (exec (.sample n)) s (s.takeSample (s.datapath n).clamped) := by
  refine ignoresName_of_kept fun base first index => ?_
  rw [exec_sample, State.takeSample_eq, State.takeSample_eq]
  rfl

theorem exec_ignoresName {i : Instr} {s t : State} (h : exec i s = .next t) : IgnoresName (exec i) s t := by
  cases i with
  | decode base out spacing first count => exact exec_command_ignoresName (c := ⟨base, out, spacing, first, count⟩) h
  | hdr => exact exec_reads_ignoresName (.inl rfl) h
  | nibw => exact exec_reads_ignoresName (.inr rfl) h
  | sample n =>
    obtain rfl := Host.Outcome.next.inj ((exec_sample s n).symm.trans h)
    exact exec_sample_ignoresName s n
  | _ =>
    obtain rfl := Host.Outcome.next.inj h
    exact ignoresName_of_kept fun _ _ _ => rfl

theorem decoderTurn_ignoresName {s t : State} (h : decoderTurn s = .next t) : IgnoresName decoderTurn s t := by
  rcases decoderTurn_next h with ⟨hidle, rfl⟩ | ⟨hb, raw, hup, hexec⟩ | ⟨hb, hup, rfl⟩
  · exact ignoresName_of_kept fun base first index => decoderTurn_idle (s := t.withName base first index) hidle
  · intro base first index
    obtain ⟨base', first', index', hrun⟩ := exec_ignoresName hexec base first index
    exact ⟨base', first', index', (decoderTurn_raw (s := s.withName base first index) hb hup).trans hrun⟩
  · exact ignoresName_of_kept fun base first index => decoderTurn_stop (s := s.withName base first index) hb hup

/-- A reset leaves no register its value. -/
theorem State.powerOn_withName (s : State) (base first index : Nat) : (s.withName base first index).powerOn = s.powerOn := by
  have hstatus : (s.withName base first index).status = s.status := rfl
  by_cases hb : s.status = .busy
  · simp only [State.powerOn, hstatus, if_pos hb]
    rfl
  · simp only [State.powerOn, hstatus, if_neg hb]
    rfl

theorem hostTurn_ignoresName {ev : HostEvent} {s t : State} (h : hostTurn ev s = .next t) : IgnoresName (hostTurn ev) s t := by
  cases ev with
  | command c => exact exec_command_ignoresName h
  | reset =>
    obtain rfl := Host.Outcome.next.inj h
    exact ignoresName_of_overwritten fun base first index =>
      congrArg Host.Outcome.next (s.powerOn_withName base first index)
  | storeByte | dropByte | storeSlot =>
    obtain rfl := Host.Outcome.next.inj h
    exact ignoresName_of_kept fun _ _ _ => rfl

theorem step_ignoresName {s t : State} (h : step s = .next t) : IgnoresName step s t := by
  intro base first index
  rcases step_cases s with ⟨ev, rest, htape, hstep⟩ | ⟨hsilent, hstep⟩
  · obtain ⟨base', first', index', hrun⟩ := hostTurn_ignoresName (hstep.symm.trans h) base first index
    exact ⟨base', first', index', (step_event (s := s.withName base first index) htape).trans hrun⟩
  · obtain ⟨base', first', index', hrun⟩ := decoderTurn_ignoresName (hstep.symm.trans h) base first index
    exact ⟨base', first', index', (step_silent (s := s.withName base first index) hsilent).trans hrun⟩

theorem core_run_ignoresName {k : Nat} {s t : State} (h : Host.Core.run Sys2Proof.core k s = .next t) :
    IgnoresName (Host.Core.run Sys2Proof.core k) s t := by
  intro base first index
  induction k generalizing s base first index with
  | zero =>
    obtain rfl := Host.Outcome.next.inj h
    exact ⟨base, first, index, rfl⟩
  | succ k ih =>
    obtain ⟨u, hstep⟩ := everyStepAnswersNext s
    obtain ⟨base₁, first₁, index₁, hstep'⟩ := step_ignoresName hstep base first index
    obtain ⟨base', first', index', hrun⟩ := ih ((core_run_succ hstep k).symm.trans h) base₁ first₁ index₁
    exact ⟨base', first', index', (core_run_succ hstep' k).trans hrun⟩

/-- Settles O20: the two calls start in states that differ in the block's name alone, and no step looks at it. -/
theorem twoNamesOfABlockRunAlike : Obligations.TwoNamesOfABlockRunAlike := by
  intro s b q r out spacing count _ hacc hacc'
  refine ⟨_, _, exec_decode_accepted hacc, exec_decode_accepted hacc', locateAddr_inBlock b q r, locateOffset_inBlock q r,
    fun k => ?_⟩
  obtain ⟨t, hrun⟩ := core_run_answers k (s.startCall ⟨b, out, spacing, 256 * q + r, count⟩)
  obtain ⟨base, first, index, hrun'⟩ := core_run_ignoresName hrun (b + 0x8c * q) r (locateIndex r)
  rw [← State.startCall_otherName] at hrun'
  exact ⟨t, t.withName base first index, hrun, hrun', rfl, rfl, rfl, rfl, rfl⟩

end Sys2Proof.Machine
end

section
/-! PROOFS. `HDR` (42_header_parser.md): the header's fields are what its four reads return, the step at `HDR` (R150), and the spec's
example words. -/

namespace Sys2Proof

/-- Settles O6: the four lists are fixed bytes of exactly their format's length, and the decoder is evaluated on each. -/
theorem exampleWordsDecodeAsTheSpecSays : Obligations.ExampleWordsDecodeAsTheSpecSays :=
  ⟨rfl, rfl, rfl, rfl⟩

namespace Machine

/-! The fields of a wide read (R63) -/

/-- The value of consecutive bytes, of which the first `n` are the low ones. -/
theorem Memory.value_add (m : List Host.Cell) (a n k : Nat) :
    Memory.value m a (n + k) = Memory.value m a n + 256 ^ n * Memory.value m (a + n) k := by
  induction n generalizing a with
  | zero => simp [Memory.value, Memory.bytesAt, leNat]
  | succ n ih =>
    simp only [Memory.value] at ih ⊢
    rw [Nat.succ_add, Memory.bytesAt, leNat, ih, Memory.bytesAt, leNat, Nat.add_assoc a 1 n, Nat.add_comm 1 n]
    ring

/-- The bits of bytes `k` to `k + l - 1` of a value are what a read of those bytes returns. -/
theorem extractLsb'_ofNat_value (m : List Host.Cell) (a k l r : Nat) :
    (BitVec.ofNat (8 * (k + (l + r))) (Memory.value m a (k + (l + r)))).extractLsb' (8 * k) (8 * l) =
      BitVec.ofNat (8 * l) (Memory.value m (a + k) l) := by
  have hwide := Memory.value_lt m a (k + (l + r))
  have hlow := Memory.value_lt m a k
  apply BitVec.eq_of_toNat_eq
  rw [BitVec.extractLsb'_toNat, BitVec.toNat_ofNat, BitVec.toNat_ofNat, Nat.shiftRight_eq_div_pow]
  simp only [Nat.pow_mul, Nat.reducePow]
  rw [Nat.mod_eq_of_lt hwide, Memory.value_add, Nat.add_mul_div_left _ _ (by positivity), Nat.div_eq_of_lt hlow, Nat.zero_add,
    Memory.value_add, Nat.add_mul_mod_self_left]

/-- R92, R150: the fields of the header are what the four reads return. -/
theorem decodeHeader_headerBits (s : State) :
    decodeHeader s.headerBits =
      .hdr (BitVec.ofNat 32 (Memory.value s.source (s.blockAddr + 0x00) 4))
        (BitVec.ofNat 32 (Memory.value s.source (s.blockAddr + 0x04) 4))
        (BitVec.ofNat 16 (Memory.value s.source (s.blockAddr + 0x08) 2))
        (BitVec.ofNat 16 (Memory.value s.source (s.blockAddr + 0x0a) 2)) := by
  have field := extractLsb'_ofNat_value s.source s.blockAddr
  rw [decodeHeader, Instr.hdr.injEq]
  exact ⟨field 0 4 8, field 4 4 4, field 8 2 2, field 10 2 0⟩

/-! The step at `HDR` (R150) -/

/-- With the host silent, the step at `HDR` makes the header's reads and then loads the fields. -/
theorem step_header {s : State} (hsilent : s.hostSilent) (hb : s.status = .busy) (hstage : s.stage = .header) :
    step s = s.popped.memReads s.headerReads fun t => .next (loadOperands (decodeHeader s.headerBits) t) :=
  calc
    step s = decoderTurn s.popped := step_silent hsilent
    _ = exec (decodeHeader s.headerBits) s.popped := decoderTurn_header (s := s.popped) hb hstage
    _ = _ := exec_reads_then_loads (.inl rfl) s.popped

/-- Settles O22: the reads all succeed and the fields are loaded, or the reads stop at the first that fails. -/
theorem headerReadsOrFaults : Obligations.HeaderReadsOrFaults := by
  intro s hsilent hb hstage
  have hstep := step_header hsilent hb hstage
  refine ⟨fun hcoef hshift hh1 hh2 => ?_, fun pre a n post hreads hpre hfail => ?_⟩
  · have hall : ∀ r ∈ s.headerReads, Memory.readable s.source r.1 r.2 = true := by
      simpa [State.headerReads] using ⟨hcoef, hshift, hh1, hh2⟩
    rw [s.popped.memReads_ok _ _ hall, decodeHeader_headerBits] at hstep
    exact ⟨_, hstep, Nat.mod_eq_of_lt (Memory.value_lt _ _ 4), Nat.mod_eq_of_lt (Memory.value_lt _ _ 4),
      toInt_sext16 _, toInt_sext16 _, rfl⟩
  · rw [State.headerReads, hreads, s.popped.memReads_fault pre post a n _ hpre hfail] at hstep
    exact ⟨_, hstep, rfl, rfl, rfl, (List.append_assoc ..).symm⟩

end Machine

end Sys2Proof
end

section
/-! PROOFS. The coefficient table (43_coefficient_table.md): the step at the start of a subframe (R172), the closed form of a sample
(R202, R221, R229), and the sixteen descriptors (R173 to R188). -/

namespace Sys2Proof.Machine

/-! The step at the start of a subframe (R170 to R172) -/

/-- R170: the seven rows of the table. -/
theorem tableEntry_rows : ∀ e < 7,
    [((0 : Int), (0 : Int)), (60, 0), (122, 60), (115, 52), (98, 55), (0, 0), (0, 0)][e]? =
      some ((tableEntry e).1.toInt, (tableEntry e).2.toInt) := by
  decide

/-- Settles O24: with the quota open at a subframe's first boundary the decoder's turn is `beginSubframe` of the two latched fields,
and the folded index names a row of the table. -/
theorem descriptorSelectsPairAndShift : Obligations.DescriptorSelectsPairAndShift := by
  intro s hsilent hb hstage hquota hj
  have hturn := decoderTurn_descriptor (s := s.popped) hb hstage (decide_eq_true hquota) hj
  exact ⟨_, (step_silent hsilent).trans hturn, tableEntry_rows _ (Nat.mod_lt _ (by decide)), toNat_effectiveShift _,
    rfl, rfl, rfl, rfl, rfl, rfl, rfl⟩

/-! The closed form of a sample (R202, R221, R229) -/

/-- The constant left shift of step 1 puts a nibble's sign bit where a word's stands (R202). -/
theorem lsl32_nibble : ∀ n : Nibble, lsl32 n.toNat nibbleLeftShift = n.toInt * 2 ^ 28 := by decide

/-- R202: step 1 at the effective shift is a multiplication. -/
theorem scaleNibble_eq (n sf : Nibble) : scaleNibble n (22 - sf.toNat) = n.toInt * 2 ^ sf.toNat * 64 := by
  have hsf := sf.isLt
  have hpow : (2 : Int) ^ 28 = 2 ^ sf.toNat * 64 * 2 ^ (22 - sf.toNat) := by
    rw [show (64 : Int) = 2 ^ 6 by norm_num, ← pow_add, ← pow_add]
    congr 1
    omega
  rw [scaleNibble, lsl32_nibble, asr, hpow, ← mul_assoc, ← mul_assoc, Int.mul_ediv_cancel _ (by positivity)]

/-- R221, R225: scaling down takes a multiple of 64 out exactly and rounds the rest. -/
theorem scaleDown_add_mul (p v : Int) : scaleDown (p + v * 64) = v + asr p 6 := by
  have hdiv : (p + v * 64) / 64 = p / 64 + v := Int.add_mul_ediv_right _ _ (by decide)
  exact hdiv.trans (add_comm _ _)

/-- R229: the scaled nibble is a multiple of 64, so only the prediction term is rounded. -/
theorem State.datapath_clamped {s : State} {sf : Nibble} (hshift : s.shift.toNat = 22 - sf.toNat) (n : Nibble) :
    (s.datapath n).clamped = clamp16 (n.toInt * 2 ^ sf.toNat +
      asr (s.coef1.toInt * s.hist1.toInt - s.coef2.toInt * s.hist2.toInt) 6) := by
  have hpredicted : (s.datapath n).predicted =
      s.coef1.toInt * s.hist1.toInt - s.coef2.toInt * s.hist2.toInt + n.toInt * 2 ^ sf.toNat * 64 := by
    simp only [State.datapath, hshift, scaleNibble_eq, predict]
    ring
  calc
    (s.datapath n).clamped = clamp16 (scaleDown (s.datapath n).predicted) := rfl
    _ = _ := by rw [hpredicted, scaleDown_add_mul]

/-! The sixteen descriptors (R173 to R188) -/

/-- The clamp leaves a 16-bit value alone (R222). -/
theorem clamp16_of_range {v : Int} (hmin : -32768 ≤ v) (hmax : v ≤ 32767) : clamp16 v = v := by
  rw [clamp16, sampleMin, sampleMax, if_neg (by omega), if_neg (by omega)]

/-- R96, R172: a descriptor byte begins a subframe with its low half as the opcode and its high half as the operand. -/
theorem exec_descriptor_append (sf coefIndex : Nibble) (s : State) :
    exec (decodeDescriptor (sf ++ coefIndex)) s = .next (beginSubframe coefIndex sf s) := by
  rw [exec_descriptor, BitVec.extractLsb'_append_eq_right, BitVec.extractLsb'_append_eq_left]

section
variable {i : Nibble → Instr} {coefIndex : Nibble}
  (hencode : ∀ sf, encodeRaw (i sf) = .d (descriptorBits sf coefIndex))
include hencode

/-- R96, R103: the descriptor byte an instruction is encoded in decodes to it. -/
theorem decodeDescriptor_of_encode (sf : Nibble) : decodeDescriptor (sf ++ coefIndex) = i sf := by
  have hdecode := decodeRaw_encodeRaw (i sf)
  rwa [hencode] at hdecode

/-- R172: the instruction begins a subframe with its opcode and its operand. -/
theorem exec_of_encode (sf : Nibble) (s : State) : exec (i sf) s = .next (beginSubframe coefIndex sf s) := by
  rw [← decodeDescriptor_of_encode hencode sf, exec_descriptor_append]

/-- R172, R229: a descriptor gives the sample of the pair its opcode selects. -/
theorem descriptorGives_pair {c1 c2 : Byte} (hpair : coefPair coefIndex = (c1, c2)) :
    descriptorGives i coefIndex c1.toInt c2.toInt (fun h1 h2 => asr (c1.toInt * h1 - c2.toInt * h2) 6) := by
  intro sf s
  refine ⟨decodeDescriptor_of_encode hencode sf, _, exec_of_encode hencode sf s, by simp [hpair], by simp [hpair],
    toNat_effectiveShift sf, fun n u hcoef1 hcoef2 hshift => ⟨_, exec_sample u n, ?_⟩⟩
  have hcoef1 : u.coef1 = c1 := by simpa [hpair] using hcoef1
  have hcoef2 : u.coef2 = c2 := by simpa [hpair] using hcoef2
  have hshift : u.shift.toNat = 22 - sf.toNat := hshift ▸ toNat_effectiveShift sf
  rw [State.takeSample_hist1, State.datapath_clamped hshift, toInt_ofInt_clamp16, hcoef1, hcoef2]

/-- The rows without a prediction (R173, R178, R179). -/
theorem descriptorGives_raw (hpair : coefPair coefIndex = (0, 0)) :
    descriptorGives i coefIndex 0 0 (fun _ _ => 0) := by
  simpa [asr] using descriptorGives_pair hencode hpair

/-- The row that predicts from one sample (R174). -/
theorem descriptorGives_firstOrder (hpair : coefPair coefIndex = (60, 0)) :
    descriptorGives i coefIndex 60 0 (fun h1 _ => asr (60 * h1) 6) := by
  simpa using descriptorGives_pair hencode hpair

/-- R171: an encoding whose index folds to that of another gives the same. -/
theorem descriptorGives_of_fold {j : Nibble → Instr} {coefIndex' : Nibble} {c1 c2 : Int} {f : Int → Int → Int}
    (h : descriptorGives j coefIndex' c1 c2 f) (hfold : effectiveIndex coefIndex = effectiveIndex coefIndex') :
    descriptorGives i coefIndex c1 c2 f := by
  intro sf s
  obtain ⟨hdecode, hgives⟩ := h sf s
  have hexec : exec (i sf) s = exec (j sf) s := by
    rw [exec_of_encode hencode, ← hdecode, exec_descriptor_append]
    simp only [beginSubframe, coefPair, hfold]
  rw [hexec]
  exact ⟨decodeDescriptor_of_encode hencode sf, hgives⟩

end

/-- Settles O25: each mode gives the sample of its row of the table, and a nibble is within the clamp's range. -/
theorem sevenModesGiveTheirSample : Obligations.SevenModesGiveTheirSample := by
  refine ⟨descriptorGives_raw (fun _ => rfl) rfl, descriptorGives_firstOrder (fun _ => rfl) rfl,
    descriptorGives_pair (c1 := 122) (c2 := 60) (fun _ => rfl) rfl,
    descriptorGives_pair (c1 := 115) (c2 := 52) (fun _ => rfl) rfl,
    descriptorGives_pair (c1 := 98) (c2 := 55) (fun _ => rfl) rfl,
    descriptorGives_raw (fun _ => rfl) rfl, descriptorGives_raw (fun _ => rfl) rfl, fun n => ?_⟩
  have hmin := n.le_toInt
  have hmax := n.toInt_lt
  rw [pow_zero, mul_one]
  exact clamp16_of_range (by omega) (by omega)

/-- Settles O26: each alias folds to a mode of O25. -/
theorem nineAliasesGiveTheirSample : Obligations.NineAliasesGiveTheirSample := by
  obtain ⟨hmode0, hmode1, hmode2, hmode3, hmode4, hmode5, hmode6, -⟩ := sevenModesGiveTheirSample
  exact ⟨descriptorGives_of_fold (fun _ => rfl) hmode0 rfl, descriptorGives_of_fold (fun _ => rfl) hmode1 rfl,
    descriptorGives_of_fold (fun _ => rfl) hmode2 rfl, descriptorGives_of_fold (fun _ => rfl) hmode3 rfl,
    descriptorGives_of_fold (fun _ => rfl) hmode4 rfl, descriptorGives_of_fold (fun _ => rfl) hmode5 rfl,
    descriptorGives_of_fold (fun _ => rfl) hmode6 rfl, descriptorGives_of_fold (fun _ => rfl) hmode0 rfl,
    descriptorGives_of_fold (fun _ => rfl) hmode1 rfl⟩

end Sys2Proof.Machine
end

section
/-! PROOFS. The nibble unpacker (44_nibble_unpacker.md): the step at `NIBW` (R200) and the scaling of a nibble (R202, R203, R205). -/

namespace Sys2Proof.Machine

/-! The step at `NIBW` (R200) -/

/-- R63: the word a four-byte read hands over keeps the value read. -/
theorem State.toNat_wordBits (s : State) : s.wordBits.toNat = Memory.value s.source s.nibbleWordAddr 4 :=
  Nat.mod_eq_of_lt (Memory.value_lt s.source s.nibbleWordAddr 4)

/-- With the host silent, the step where a nibble word stands next makes its read and then loads it. -/
theorem step_word {s : State} (hsilent : s.hostSilent) (hb : s.status = .busy)
    (hstage : s.stage = .fetch ∨ (s.stage = .boundary ∧ s.quotaOpen = true ∧ s.pos.j ≠ 0)) :
    step s = s.popped.memReads s.nibbleReads fun t => .next (loadOperands (.nibw s.wordBits) t) :=
  calc
    step s = decoderTurn s.popped := step_silent hsilent
    _ = exec (.nibw s.wordBits) s.popped := decoderTurn_word (s := s.popped) hb hstage
    _ = _ := exec_reads_then_loads (.inr rfl) s.popped

/-- Settles O28: the one read succeeds and the word is loaded, or it fails and the call ends; where the quota is met the boundary is
a stop. -/
theorem nibbleWordReadsOrFaults : Obligations.NibbleWordReadsOrFaults := by
  refine ⟨fun s a hsilent hb hplace ha => ?_, fun s hsilent hb hstage hquota => ?_⟩
  · obtain rfl : a = s.nibbleWordAddr := ha
    have hstage : s.stage = .fetch ∨ (s.stage = .boundary ∧ s.quotaOpen = true ∧ s.pos.j ≠ 0) :=
      hplace.imp_right fun ⟨hboundary, hopen, hj⟩ => ⟨hboundary, decide_eq_true hopen, hj⟩
    have hstep := step_word hsilent hb hstage
    refine ⟨fun hread => ?_, fun hfail => ?_⟩
    · have hall : ∀ r ∈ s.nibbleReads, Memory.readable s.source r.1 r.2 = true := by
        simpa [State.nibbleReads] using hread
      rw [s.popped.memReads_ok _ _ hall] at hstep
      exact ⟨_, hstep, s.toNat_wordBits, rfl, rfl, rfl⟩
    · have hfault := s.popped.memReads_fault [] [] s.nibbleWordAddr 4 (fun t => .next (loadOperands (.nibw s.wordBits) t))
        nofun hfail
      exact ⟨_, hstep.trans hfault, rfl, rfl, rfl, rfl⟩
  · obtain ⟨t, hstep, hdone, -, -, -, hlog⟩ := stopEndsTheCallInDone s hsilent hb (.inr ⟨.inl hstage, hquota⟩)
    exact ⟨t, hstep, hdone, hlog⟩

/-! Step 1 of the pipeline (R202, R203, R205) -/

/-- R203: the multiplication of step 1 as one power of two. -/
theorem scaleNibble_eq_pow (n sf : Nibble) : scaleNibble n (22 - sf.toNat) = n.toInt * 2 ^ (6 + sf.toNat) := by
  rw [scaleNibble_eq]
  ring

/-- R205: the range of step 1, from the range of a nibble and of the power of two it is multiplied by. -/
theorem scaleNibble_range (n sf : Nibble) :
    -16777216 ≤ scaleNibble n (22 - sf.toNat) ∧ scaleNibble n (22 - sf.toNat) ≤ 14680064 := by
  have hmin : -8 ≤ n.toInt := n.le_toInt
  have hmax : n.toInt < 8 := n.toInt_lt
  have hpos : (0 : Int) < 2 ^ sf.toNat := by positivity
  have hpow : (2 : Int) ^ sf.toNat ≤ 2 ^ 15 := pow_le_pow_right₀ (by decide) (Nat.le_of_lt_succ sf.isLt)
  rw [scaleNibble_eq]
  constructor <;> nlinarith

/-- Settles O31: step 1 multiplies by a power of two that holds the factor 64. -/
theorem scalingClosedForm : Obligations.ScalingClosedForm := by
  intro n sf
  have hmultiple : scaleNibble n (22 - sf.toNat) % 64 = 0 := by
    rw [scaleNibble_eq, Int.mul_emod_left]
  exact ⟨scaleNibble_eq_pow n sf, hmultiple, scaleNibble_range n sf⟩

end Sys2Proof.Machine
end

section
/-! PROOFS. The prediction pipeline (45_prediction_pipeline.md): the rounding of step 3 (R225), the closed form of a sample and its
fixed points in mode 1 (R229, R230), the bounds of the intermediate values (R227), and the whole of `SAMPLE` (R223, R224, R252). -/

namespace Sys2Proof.Machine

/-! The arithmetic right shift (R225) -/

/-- R225: the quotient is the one whose multiple the value lies at or above, by less than the divisor. -/
theorem asr_eq_iff (v q : Int) (n : Nat) : asr v n = q ↔ q * 2 ^ n ≤ v ∧ v < (q + 1) * 2 ^ n := by
  rw [asr, Int.ediv_eq_iff_of_pos (by positivity), add_mul, one_mul]

/-- R225: below 0 and off the multiples, rounding down is one below rounding toward 0. -/
theorem asr_eq_tdiv_sub_one {v : Int} {n : Nat} (hneg : v < 0) (hrest : v % 2 ^ n ≠ 0) : asr v n = v.tdiv (2 ^ n) - 1 := by
  have hsign : Int.sign (2 ^ n) = 1 := Int.sign_eq_one_of_pos (by positivity)
  have hno : ¬ (0 ≤ v ∨ (2 : Int) ^ n ∣ v) := by
    rw [Int.dvd_iff_emod_eq_zero]
    omega
  rw [asr, Int.tdiv_eq_ediv, if_neg hno, hsign, add_sub_cancel_right]

/-- Settles O32: the floor's two bounds, its relation to truncation on each side of 0, and the shift of a word. -/
theorem shiftRoundsDown : Obligations.ShiftRoundsDown := by
  refine ⟨asr_eq_iff, fun v n => ⟨fun hv => (Int.tdiv_eq_ediv_of_nonneg hv).symm, asr_eq_tdiv_sub_one⟩, fun x n => ?_⟩
  rw [BitVec.toInt_sshiftRight, Int.shiftRight_eq_div_pow, asr]
  norm_cast

/-! The closed form of a sample (R229, R230) -/

/-- R223, R229: what a `SAMPLE` leaves in `HIST1`. -/
theorem State.toInt_hist1_takeSample {s : State} {sf : Nibble} (hshift : s.shift.toNat = 22 - sf.toNat) (n : Nibble) :
    (s.takeSample (s.datapath n).clamped).hist1.toInt = clamp16 (n.toInt * 2 ^ sf.toNat +
      (s.coef1.toInt * s.hist1.toInt - s.coef2.toInt * s.hist2.toInt) / 64) := by
  rw [State.takeSample_hist1, State.datapath_clamped hshift, toInt_ofInt_clamp16]
  rfl

/-- Settles O33: `SAMPLE` completes with the closed form in `HIST1`. -/
theorem sampleClosedForm : Obligations.SampleClosedForm :=
  fun s n _ hshift => ⟨_, exec_sample s n, State.toInt_hist1_takeSample hshift n⟩

/-- R230: of the 16-bit values, those that 60/64 rounded down gives back. -/
theorem clamp16_mul_sixty_eq_iff {h : Int} (hmin : -32768 ≤ h) (hmax : h ≤ 32767) :
    clamp16 (60 * h / 64) = h ↔ -15 ≤ h ∧ h ≤ 0 := by
  rw [clamp16_of_range (by omega) (by omega)]
  omega

/-- Settles O38: in mode 1 a zero nibble leaves 60/64 of `HIST1`, rounded down. -/
theorem modeOneFixedPoints : Obligations.ModeOneFixedPoints := by
  intro s ⟨hmin, hmax⟩ hcoef1 hcoef2 hshift
  refine ⟨_, exec_sample s 0, ?_⟩
  have hvalue : (s.takeSample (s.datapath 0).clamped).hist1.toInt = clamp16 (60 * s.hist1.toInt / 64) := by
    have hshift' : s.shift.toNat = 22 - (0 : Nibble).toNat := congrArg BitVec.toNat hshift
    have hcoef1' : s.coef1.toInt = 60 := congrArg BitVec.toInt hcoef1
    have hcoef2' : s.coef2.toInt = 0 := congrArg BitVec.toInt hcoef2
    rw [State.toInt_hist1_takeSample hshift', hcoef1', hcoef2']
    simp
  rw [← BitVec.toInt_inj, hvalue]
  exact clamp16_mul_sixty_eq_iff hmin hmax

/-! The bounds of the intermediate values (R227) -/

/-- R170: no row of the table goes beyond entry 2, and none is negative. -/
theorem coefPair_range : ∀ ci : Nibble, (0 ≤ (coefPair ci).1.toInt ∧ (coefPair ci).1.toInt ≤ 122) ∧
    (0 ≤ (coefPair ci).2.toInt ∧ (coefPair ci).2.toInt ≤ 60) := by
  decide

/-- A coefficient within `0` to `c` moves a history value no further than `c` moves the range's ends. -/
theorem hist_mul_coef_range {h : Word} (hh : histInRange h) {a c : Int} (ha : 0 ≤ a ∧ a ≤ c) :
    -32768 * c ≤ h.toInt * a ∧ h.toInt * a ≤ 32767 * c := by
  obtain ⟨hmin, hmax⟩ := hh
  obtain ⟨hpos, hle⟩ := ha
  constructor <;> nlinarith

/-- R227: step 2, from the ranges of its three terms. -/
theorem State.predicted_range {s : State} {sf ci : Nibble} (n : Nibble) (h1 : histInRange s.hist1) (h2 : histInRange s.hist2)
    (hpair : (s.coef1, s.coef2) = coefPair ci) (hshift : s.shift = effectiveShift sf) :
    -22740932 ≤ (s.datapath n).predicted ∧ (s.datapath n).predicted ≤ 20643718 := by
  obtain ⟨hcoef1, hcoef2⟩ : (0 ≤ s.coef1.toInt ∧ s.coef1.toInt ≤ 122) ∧ (0 ≤ s.coef2.toInt ∧ s.coef2.toInt ≤ 60) := by
    have hrange := coefPair_range ci
    rwa [← hpair] at hrange
  have hscaled := scaleNibble_range n sf
  rw [← toNat_effectiveShift, ← hshift] at hscaled
  have hprod1 := hist_mul_coef_range h1 hcoef1
  have hprod2 := hist_mul_coef_range h2 hcoef2
  simp only [State.datapath, predict]
  omega

/-- R221: step 3 divides the bounds of step 2 by 64. -/
theorem scaleDown_range {p : Int} (hp : -22740932 ≤ p ∧ p ≤ 20643718) : -355328 ≤ scaleDown p ∧ scaleDown p ≤ 322558 := by
  have hdiv : scaleDown p = p / 64 := rfl
  omega

/-- Settles O34: the bounds hold term by term, and the nibbles 8 and 7 reach them with entry 2 at shift factor 15. -/
theorem noIntermediateOverflows : Obligations.NoIntermediateOverflows := by
  refine ⟨fun s n sf ci h1 h2 hpair hshift => ?_, ⟨8, by decide⟩, ⟨7, by decide⟩⟩
  have hpredicted := State.predicted_range n h1 h2 hpair hshift
  exact ⟨hpredicted.1, hpredicted.2, scaleDown_range hpredicted⟩

/-! `SAMPLE` (R223, R224, R252) -/

/-- R224, R250: with the host silent, the step at an open nibble is `SAMPLE` of the nibble at `K`. -/
theorem step_nibble {s : State} (hsilent : s.hostSilent) (hb : s.status = .busy) (hstage : s.stage = .nibble)
    (hq : s.quotaOpen = true) : step s = exec (.sample s.currentNibble) s.popped :=
  (step_silent hsilent).trans (decoderTurn_nibble (s := s.popped) hb hstage hq)

/-- Settles O35: the sample taken is the clamped value of the datapath, and the write test decides on its slot and its count. -/
theorem sampleCompletes : Obligations.SampleCompletes := by
  intro s n v hv
  have hvalue : v = (s.datapath n).clamped := hv
  have hrange : -32768 ≤ v ∧ v ≤ 32767 := hv ▸ clamp16_range _
  obtain ⟨hword, hhalf⟩ := toInt_ofInt_of_range v hrange
  refine ⟨⟨s.takeSample v, hvalue ▸ exec_sample s n, s.takeSample_g v, s.takeSample_hist2 v, hword, fun htest => ?_,
    fun htest => ?_⟩, fun hsilent hb hstage hopen hn => hn ▸ step_nibble hsilent hb hstage (decide_eq_true hopen)⟩
  · have hwrites : s.writes = true := s.writes_iff.mpr htest
    have hbuf : (s.takeSample v).outBuf = Memory.write s.outBuf s.nextSlot (BitVec.ofInt 16 v) := by simp [hwrites]
    refine ⟨by simp [hwrites], hbuf, _, ?_, hhalf⟩
    rw [hbuf]
    exact Memory.read_write_same _ _ _
  · have hwrites : ¬ s.writes = true := fun h => htest (s.writes_iff.mp h)
    simp [hwrites]

end Sys2Proof.Machine
end

section
/-! PROOFS. The output window and the sequencer (46_output_window_sequencer.md): the step runs what the bits at the place that
stands next decode to (R250). -/

namespace Sys2Proof

/-- A list of exactly a format's length decodes to the raw word it holds. -/
theorem eq_decodeRaw_of_decodeBytes {f : Format} {bs : List Byte} {raw : Raw} {i : Instr} (hlen : bs.length = formatBytes f)
    (hraw : rawOfBytes f bs = .ok raw) (h : decodeBytes f bs = .ok (i, [])) : i = decodeRaw raw := by
  rw [← List.take_of_length_le hlen.le] at hraw
  rw [decodeBytes_of_raw hlen.ge hraw] at h
  exact (congrArg Prod.fst (Except.ok.inj h)).symm

/-- A single byte is the descriptor it holds (R96). -/
theorem rawOfBytes_descriptor (d : BitVec 8) : rawOfBytes .d [d] = .ok (.d d) := by
  simp [rawOfBytes, leNat]

namespace Machine

theorem decodeRaw_headerBits {s : State} {i : Instr}
    (h : decodeBytes .h (Memory.bytesAt s.source s.blockAddr 12) = .ok (i, [])) : i = decodeRaw (.h s.headerBits) :=
  eq_decodeRaw_of_decodeBytes (Memory.length_bytesAt _ _ _) rfl h

theorem decodeRaw_descriptor {s : State} {i : Instr} {k : Nat}
    (h : decodeBytes .d [s.shiftBits.extractLsb' (4 * k) 4 ++ s.coefBits.extractLsb' (4 * k) 4] = .ok (i, [])) :
    i = decodeRaw (.d (s.descriptor k)) :=
  eq_decodeRaw_of_decodeBytes rfl (rawOfBytes_descriptor _) h

theorem decodeRaw_wordBits {s : State} {i : Instr}
    (h : decodeBytes .w (Memory.bytesAt s.source s.nibbleWordAddr 4) = .ok (i, [])) : i = decodeRaw (.w s.wordBits) :=
  eq_decodeRaw_of_decodeBytes (Memory.length_bytesAt _ _ _) rfl h

/-- Settles O8: at each place the list of bytes is exactly the format's, so it decodes to the raw word the decoder's turn runs. -/
theorem stepRunsTheDecodedInstruction : Obligations.StepRunsTheDecodedInstruction := by
  refine fun s i => ⟨fun c rest htape => step_event htape,
    fun hsilent hb => ⟨fun hstage h => ?_, fun hstage hq hj h => ?_, fun hplace h => ?_, fun hstage hq hi => ?_⟩⟩
  · rw [decodeRaw_headerBits h]
    exact (step_silent hsilent).trans (decoderTurn_header (s := s.popped) hb hstage)
  · have hturn := decoderTurn_descriptor (s := s.popped) hb hstage (decide_eq_true hq) hj
    rw [decodeRaw_descriptor h]
    exact (step_silent hsilent).trans (hturn.trans (exec_descriptor_of s.popped s.pos.i.val).symm)
  · have hstage : s.stage = .fetch ∨ (s.stage = .boundary ∧ s.quotaOpen = true ∧ s.pos.j ≠ 0) :=
      hplace.imp_right fun ⟨hboundary, hopen, hj⟩ => ⟨hboundary, decide_eq_true hopen, hj⟩
    rw [decodeRaw_wordBits h]
    exact (step_silent hsilent).trans (decoderTurn_word (s := s.popped) hb hstage)
  · rw [hi]
    exact step_nibble hsilent hb hstage (decide_eq_true hq)

end Machine

end Sys2Proof
end

section
/-! PROOFS. The output window and the sequencer (46_output_window_sequencer.md): a call from its start to its stop (R250 to R257). Its
registers follow the block's bytes, its reads and its writes follow the closed forms. -/

namespace Sys2Proof.Machine

/-! A position and its global index (R251) -/

theorem SeqPos.index_div_subframe (p : SeqPos) : p.index / 32 = p.i.val := by
  unfold SeqPos.index
  omega

theorem SeqPos.index_div_word (p : SeqPos) : p.index / 8 = 4 * p.i.val + p.j.val := by
  unfold SeqPos.index
  omega

theorem SeqPos.index_mod_word (p : SeqPos) : p.index % 8 = p.k.val := by
  unfold SeqPos.index
  omega

/-- R200: the address of a nibble word by its linear index. -/
theorem State.nibbleWordAddr_eq (s : State) : s.nibbleWordAddr = s.blockAddr + 0x0c + 4 * (s.pos.index / 8) := by
  rw [SeqPos.index_div_word, State.nibbleWordAddr, headerBytes, subframeBytes, nibbleWordBytes]
  omega

/-! The header's history (R63, R99) -/

/-- A 16-bit header field is its two bytes, the high one first. -/
theorem toInt_ofNat_value_half (m : List Host.Cell) (a off : Nat) :
    (BitVec.ofNat 16 (Memory.value m (a + off) 2)).toInt = blockHalf m a off := by
  have hlow := (blockByte m a off).isLt
  have hbytes : Memory.value m (a + off) 2 = (blockByte m a off).toNat + 256 * (blockByte m a (off + 1)).toNat := by
    simp [Memory.value, Memory.bytesAt, leNat, blockByte, Nat.add_assoc]
  rw [blockHalf, hbytes]
  congr 1
  apply BitVec.eq_of_toNat_eq
  rw [BitVec.toNat_append, BitVec.toNat_ofNat, ← Nat.shiftLeft_add_eq_or_of_lt hlow, Nat.shiftLeft_eq]
  omega

/-! Registers that follow the block's bytes -/

/-- In a call the registers loaded so far hold what the block's bytes say of the place: the header's latches, the history before the
sample `G` (R254), the subframe's pair and shift, and the nibble word. -/
structure State.FollowsBlock (s : State) : Prop where
  coefBits  : s.stage ≠ .header → s.coefBits = BitVec.ofNat 32 (Memory.value s.source s.blockAddr 4)
  shiftBits : s.stage ≠ .header → s.shiftBits = BitVec.ofNat 32 (Memory.value s.source (s.blockAddr + 4) 4)
  history   : s.stage ≠ .header → (s.hist1.toInt, s.hist2.toInt) = blockHistory s.source s.blockAddr s.g
  subframe  : s.subframeBegun → (s.coef1, s.coef2) = coefPair (blockCoefIndex s.source s.blockAddr s.pos.i.val) ∧
    s.shift = effectiveShift (blockShiftFactor s.source s.blockAddr s.pos.i.val)
  word      : s.stage = .nibble → s.nibWord = s.wordBits

namespace State.FollowsBlock

variable {s : State} (h : s.FollowsBlock)
include h

theorem coefIndex_eq (hstage : s.stage ≠ .header) : s.coefIndex s.pos.i.val = blockCoefIndex s.source s.blockAddr s.pos.i.val := by
  obtain ⟨-, hindex, -⟩ := nibblePositionsInTheByteStream s.source s.blockAddr 0 s.pos.i.val s.pos.i.isLt
  rw [State.coefIndex, h.coefBits hstage, hindex]

theorem shiftFactor_eq (hstage : s.stage ≠ .header) :
    s.shiftFactor s.pos.i.val = blockShiftFactor s.source s.blockAddr s.pos.i.val := by
  obtain ⟨-, -, hfactor⟩ := nibblePositionsInTheByteStream s.source s.blockAddr 0 s.pos.i.val s.pos.i.isLt
  rw [State.shiftFactor, h.shiftBits hstage, hfactor]

/-- R201: the nibble at `K` is the block's nibble of global index `G`. -/
theorem currentNibble_eq (hstage : s.stage = .nibble) (hg : s.g = s.pos.index) :
    s.currentNibble = blockNibble s.source s.blockAddr s.g := by
  obtain ⟨hnibble, -⟩ := nibblePositionsInTheByteStream s.source s.blockAddr s.g 0 (by decide)
  rw [State.currentNibble, h.word hstage, ← hnibble, hg, SeqPos.index_mod_word, ← State.nibbleWordAddr_eq]
  rfl

/-- R229, R258: the value a `SAMPLE` clamps is `S(G)`. -/
theorem clamped_eq (hstage : s.stage = .nibble) (hg : s.g = s.pos.index) :
    (s.datapath s.currentNibble).clamped = blockSample s.source s.blockAddr s.g := by
  obtain ⟨hpair, hshift⟩ := h.subframe (.inr (.inl hstage))
  have hshift' := hshift ▸ toNat_effectiveShift (blockShiftFactor s.source s.blockAddr s.pos.i.val)
  have hhist := h.history (by simp [hstage])
  have hi : s.g / 32 = s.pos.i.val := by rw [hg, SeqPos.index_div_subframe]
  rw [State.datapath_clamped hshift', h.currentNibble_eq hstage hg, blockSample, blockHistory, closedSample, hi, ← hpair,
    ← hhist]
  rfl

end State.FollowsBlock

/-! What each turn of the decoder keeps -/

/-- `HDR` loads the header's four fields (R92, R150). -/
theorem State.FollowsBlock.hdr {s : State} (hpos : s.pos = ⟨0, 0, 0⟩) (hg : s.g = 0) (reads : List (Nat × Nat)) :
    (loadOperands (decodeHeader s.headerBits) (s.afterReads reads)).FollowsBlock := by
  rw [decodeHeader_headerBits]
  refine ⟨fun _ => rfl, fun _ => rfl, fun _ => ?_, fun hbegun => ?_, nofun⟩
  · simp only [loadOperands, State.afterReads, hg, blockHistory, toInt_sext16, toInt_ofNat_value_half]
  · simp [State.subframeBegun, loadOperands, State.afterReads, hpos] at hbegun

theorem State.FollowsBlock.beginSubframe {s : State} (h : s.FollowsBlock) (hstage : s.stage = .boundary) :
    (beginSubframe (s.coefIndex s.pos.i.val) (s.shiftFactor s.pos.i.val) s).FollowsBlock := by
  have hloaded : s.stage ≠ .header := by simp [hstage]
  rw [h.coefIndex_eq hloaded, h.shiftFactor_eq hloaded]
  exact ⟨fun _ => h.coefBits hloaded, fun _ => h.shiftBits hloaded, fun _ => h.history hloaded, fun _ => ⟨rfl, rfl⟩, nofun⟩

theorem State.FollowsBlock.nibw {s : State} (h : s.FollowsBlock)
    (hstage : s.stage = .fetch ∨ (s.stage = .boundary ∧ s.quotaOpen = true ∧ s.pos.j ≠ 0)) (reads : List (Nat × Nat)) :
    (loadOperands (.nibw s.wordBits) (s.afterReads reads)).FollowsBlock := by
  obtain ⟨hloaded, hbegun⟩ : s.stage ≠ .header ∧ s.subframeBegun := by
    rcases hstage with hstage | ⟨hstage, -, hj⟩
    · exact ⟨by simp [hstage], .inl hstage⟩
    · exact ⟨by simp [hstage], .inr (.inr ⟨hstage, hj⟩)⟩
  exact ⟨fun _ => h.coefBits hloaded, fun _ => h.shiftBits hloaded, fun _ => h.history hloaded,
    fun _ => h.subframe hbegun, fun _ => rfl⟩

/-- Inside a word the next nibble is in the same word. -/
theorem SeqPos.next_div_word {p : SeqPos} (h : p.nextStage = .nibble) : p.next.index / 8 = p.index / 8 := by
  have hmod := p.index_mod_word
  rcases p.next_cases with ⟨hk, -, hindex, -⟩ | ⟨-, -, hstage, -⟩ | ⟨-, hstage, -⟩
  · omega
  · simp [hstage] at h
  · simp [hstage] at h

/-- R223, R254: each sample, written or discarded, advances the history. -/
theorem State.FollowsBlock.takeSample {s : State} (h : s.FollowsBlock) (hstage : s.stage = .nibble)
    (hg : s.g = s.pos.index) : (s.takeSample (s.datapath s.currentNibble).clamped).FollowsBlock := by
  have hloaded : s.stage ≠ .header := by simp [hstage]
  have hvalue := h.clamped_eq hstage hg
  have hsubframe := h.subframe (.inr (.inl hstage))
  refine ⟨fun _ => ?_, fun _ => ?_, fun _ => ?_, fun hbegun => ?_, fun hnext => ?_⟩
  · simpa using h.coefBits hloaded
  · simpa using h.shiftBits hloaded
  · have hread : (BitVec.ofInt 32 (blockSample s.source s.blockAddr s.g)).toInt = blockSample s.source s.blockAddr s.g :=
      toInt_ofInt_clamp16 _
    have hhist := congrArg Prod.fst (h.history hloaded)
    simp only [State.takeSample_hist1, State.takeSample_hist2, State.takeSample_source, State.takeSample_blockAddr,
      State.takeSample_g, hvalue]
    exact Prod.ext hread hhist
  · simpa [State.next_i_of_subframeBegun hbegun] using hsubframe
  · rw [State.takeSample_stage] at hnext
    have hword := h.word hstage
    rw [State.wordBits, State.nibbleWordAddr_eq] at hword ⊢
    simpa [SeqPos.next_div_word hnext] using hword

end Sys2Proof.Machine
end

section
/-! PROOFS. The output window and the sequencer (46_output_window_sequencer.md): how far a call decodes (R255, R256), its reads (R257)
and its writes (R258), and its run to the state in which it stops. -/

namespace Sys2Proof.Machine

/-! How far a call decodes (R255 to R257) -/

/-- How many nibbles a call decodes: none for quota 0, else those up to the last sample it writes (R257). -/
def callNibbles (intraOffset count : Nat) : Nat := if count = 0 then 0 else min (intraOffset + count) 256

theorem callNibbles_le (r q : Nat) : callNibbles r q ≤ 256 := by
  unfold callNibbles
  split <;> omega

/-- R256: the words read are those of which a nibble is decoded. -/
theorem callWords_eq (r q : Nat) : callWords r q = (callNibbles r q + 7) / 8 := by
  unfold callWords callNibbles
  split <;> omega

/-- R252, R255: inside the block the quota is open exactly while a nibble is left to decode. -/
theorem State.Counted.quotaOpen_iff {s : State} (h : s.Counted) (hg : s.g < 256) :
    s.quotaOpen = true ↔ s.g < callNibbles s.intraOffset s.samplesToDo := by
  have hdone := h.done
  simp only [State.quotaOpen, decide_eq_true_eq, callNibbles]
  split <;> omega

/-- The call has decoded no nibble and stands at no word beyond those it needs. -/
structure State.WithinNeed (s : State) : Prop where
  nibbles : s.g ≤ callNibbles s.intraOffset s.samplesToDo
  words   : s.stage = .fetch ∨ s.stage = .nibble → s.g / 8 < callWords s.intraOffset s.samplesToDo

/-- R250: where the loop stops. -/
def State.Stops (s : State) : Prop :=
  s.stage = .exhausted ∨ ((s.stage = .boundary ∨ s.stage = .nibble) ∧ s.quotaOpen = false)

/-- At a boundary with the quota open the word that stands next is needed (R256). -/
theorem State.Counted.word_needed {s : State} (h : s.Counted) (hstage : s.stage = .boundary) (hq : s.quotaOpen = true) :
    s.g / 8 < callWords s.intraOffset s.samplesToDo := by
  obtain ⟨-, hg⟩ := (State.placeOk_boundary hstage).mp h.place
  have hopen := (h.quotaOpen_iff (hg ▸ s.pos.index_lt)).mp hq
  rw [callWords_eq]
  omega

theorem State.WithinNeed.takeSample {s : State} (h : s.WithinNeed) (hcount : s.Counted) (hstage : s.stage = .nibble)
    (hq : s.quotaOpen = true) (v : Int) : (s.takeSample v).WithinNeed := by
  have hg := (State.placeOk_nibble hstage).mp hcount.place
  have hopen := (hcount.quotaOpen_iff (hg ▸ s.pos.index_lt)).mp hq
  have hword := h.words (.inr hstage)
  refine ⟨by simpa using hopen, fun hnext => ?_⟩
  simp only [State.takeSample_stage, State.takeSample_g, State.takeSample_intraOffset, State.takeSample_samplesToDo] at hnext ⊢
  rcases s.pos.next_cases with ⟨hk, -⟩ | ⟨-, -, hboundary, -⟩ | ⟨-, hexhausted, -⟩
  · have hmod := s.pos.index_mod_word
    omega
  · simp [hboundary] at hnext
  · simp [hexhausted] at hnext

/-- R257: where the loop stops, every nibble needed is decoded. -/
theorem State.WithinNeed.g_eq {s : State} (h : s.WithinNeed) (hcount : s.Counted) (hstop : s.Stops) :
    s.g = callNibbles s.intraOffset s.samplesToDo := by
  have hle := h.nibbles
  rcases hstop with hstage | ⟨hstage, hq⟩
  · obtain ⟨-, hg⟩ := (State.placeOk_exhausted hstage).mp hcount.place
    have hmax := callNibbles_le s.intraOffset s.samplesToDo
    omega
  · have hg : s.g = s.pos.index := by
      rcases hstage with hstage | hstage
      · exact ((State.placeOk_boundary hstage).mp hcount.place).2
      · exact (State.placeOk_nibble hstage).mp hcount.place
    have hclosed : ¬ s.g < callNibbles s.intraOffset s.samplesToDo := by
      rw [← hcount.quotaOpen_iff (hg ▸ s.pos.index_lt), hq]
      exact Bool.false_ne_true
    omega

/-! The reads of a call (R257) -/

/-- The header's reads and those of the first `words` nibble words. -/
def blockReads (addr words : Nat) : List (Nat × Nat) :=
  [(addr + 0x00, 4), (addr + 0x04, 4), (addr + 0x08, 2), (addr + 0x0a, 2)] ++
    (List.range words).map fun w => (addr + 0x0c + 4 * w, 4)

theorem blockReads_succ (addr words : Nat) :
    blockReads addr (words + 1) = blockReads addr words ++ [(addr + 0x0c + 4 * words, 4)] := by
  simp [blockReads, List.range_succ]

theorem callReads_eq (addr r q : Nat) : callReads addr r q = blockReads addr (callWords r q) := rfl

/-- How many nibble words the call has read at its place. -/
def State.wordsRead (s : State) : Nat := if s.stage = .nibble then s.g / 8 + 1 else s.g / 8

theorem State.wordsRead_nibble {s : State} (h : s.stage = .nibble) : s.wordsRead = s.g / 8 + 1 := if_pos h

theorem State.wordsRead_of_ne {s : State} (h : s.stage ≠ .nibble) : s.wordsRead = s.g / 8 := if_neg h

/-- Since the log was `log`, the call has made the reads of its place and no other. -/
structure State.HasRead (log : List (Nat × Nat)) (s : State) : Prop where
  none  : s.stage = .header → s.readLog = log
  block : s.stage ≠ .header → s.readLog = log ++ blockReads s.blockAddr s.wordsRead

theorem State.HasRead.hdr {log : List (Nat × Nat)} {s : State} (h : s.HasRead log) (hstage : s.stage = .header)
    (hg : s.g = 0) (cb sb : Word) (h1 h2 : Half) :
    (loadOperands (.hdr cb sb h1 h2) (s.afterReads s.headerReads)).HasRead log := by
  refine ⟨nofun, fun _ => ?_⟩
  rw [State.wordsRead_of_ne (by simp [loadOperands])]
  simp [loadOperands, State.afterReads, h.none hstage, hg, blockReads, State.headerReads]

theorem State.HasRead.nibw {log : List (Nat × Nat)} {s : State} (h : s.HasRead log) (hg : s.g = s.pos.index)
    (hstage : s.stage = .fetch ∨ s.stage = .boundary) (word : Word) :
    (loadOperands (.nibw word) (s.afterReads s.nibbleReads)).HasRead log := by
  have hloaded : s.stage ≠ .header := by rcases hstage with hstage | hstage <;> simp [hstage]
  have hword : s.stage ≠ .nibble := by rcases hstage with hstage | hstage <;> simp [hstage]
  refine ⟨nofun, fun _ => ?_⟩
  rw [State.wordsRead_nibble rfl]
  simp only [loadOperands, State.afterReads, State.nibbleReads, blockReads_succ, h.block hloaded, State.wordsRead_of_ne hword,
    List.append_assoc, State.nibbleWordAddr_eq, hg]

theorem State.HasRead.beginSubframe {log : List (Nat × Nat)} {s : State} (h : s.HasRead log) (hstage : s.stage = .boundary)
    (ci sf : Nibble) : (beginSubframe ci sf s).HasRead log := by
  refine ⟨nofun, fun _ => ?_⟩
  have hread := h.block (by simp [hstage])
  rw [State.wordsRead_of_ne (by simp [hstage])] at hread
  rwa [State.wordsRead_of_ne (by simp)]

/-- After a word's last nibble the word still counts as read. -/
theorem State.wordsRead_takeSample {s : State} (hstage : s.stage = .nibble) (hg : s.g = s.pos.index) (v : Int) :
    (s.takeSample v).wordsRead = s.wordsRead := by
  have hmod := s.pos.index_mod_word
  have hnext := s.takeSample_stage v
  rw [State.wordsRead_nibble hstage]
  rcases s.pos.next_cases with ⟨hk, hnibble, -⟩ | ⟨hk, -, hboundary, -⟩ | ⟨hlast, hexhausted, -⟩
  · rw [State.wordsRead_nibble (hnext.trans hnibble), State.takeSample_g]
    omega
  · rw [State.wordsRead_of_ne (by simp [hboundary]), State.takeSample_g]
    omega
  · rw [State.wordsRead_of_ne (by simp [hexhausted]), State.takeSample_g, hg, hlast]
    rfl

theorem State.HasRead.takeSample {log : List (Nat × Nat)} {s : State} (h : s.HasRead log) (hstage : s.stage = .nibble)
    (hg : s.g = s.pos.index) (v : Int) : (s.takeSample v).HasRead log := by
  have hnext : s.pos.nextStage ≠ .header := by
    rcases s.pos.next_cases with ⟨-, hnibble, -⟩ | ⟨-, -, hboundary, -⟩ | ⟨-, hexhausted, -⟩
    · simp [hnibble]
    · simp [hboundary]
    · simp [hexhausted]
  refine ⟨fun hheader => ?_, fun _ => ?_⟩
  · exact absurd ((s.takeSample_stage v).symm.trans hheader) hnext
  · rw [State.wordsRead_takeSample hstage hg, State.takeSample_readLog, State.takeSample_blockAddr]
    exact h.block (by simp [hstage])

/-- R257: where the loop stops, every word needed is read and no other. -/
theorem State.WithinNeed.wordsRead_eq {s : State} (h : s.WithinNeed) (hcount : s.Counted) (hstop : s.Stops) :
    s.wordsRead = callWords s.intraOffset s.samplesToDo := by
  have hall := h.g_eq hcount hstop
  rw [callWords_eq]
  rcases hstop with hstage | ⟨hstage | hstage, -⟩
  · obtain ⟨-, hg⟩ := (State.placeOk_exhausted hstage).mp hcount.place
    rw [State.wordsRead_of_ne (by simp [hstage])]
    omega
  · obtain ⟨hk, hg⟩ := (State.placeOk_boundary hstage).mp hcount.place
    have hmod := s.pos.index_mod_word
    rw [State.wordsRead_of_ne (by simp [hstage])]
    omega
  · have hword := h.words (.inr hstage)
    rw [callWords_eq] at hword
    rw [State.wordsRead_nibble hstage]
    omega

/-- Part of a readable range is readable. -/
theorem Memory.readable_part {m : List Host.Cell} {a n b k : Nat} (h : Memory.readable m a n = true) (hlow : a ≤ b)
    (hhigh : b + k ≤ a + n) : Memory.readable m b k = true := by
  rw [Memory.readable_iff] at h ⊢
  intro i hi
  rw [show b + i = a + (b + i - a) by omega]
  exact h _ (by omega)

theorem callReadable_header {m : List Host.Cell} {a r q : Nat} (h : callReadable m a r q) : Memory.readable m a 12 = true :=
  Memory.readable_part h le_rfl (by omega)

theorem callReadable_word {m : List Host.Cell} {a r q w : Nat} (h : callReadable m a r q) (hw : w < callWords r q) :
    Memory.readable m (a + 0x0c + 4 * w) 4 = true :=
  Memory.readable_part h (by omega) (by omega)

/-- A call never needs a byte outside its block (R122). -/
theorem callReadable_of_block {m : List Host.Cell} {a : Nat} (h : Memory.readable m a 0x8c = true) (r q : Nat) :
    callReadable m a r q := by
  have hmax := callNibbles_le r q
  have hwords := callWords_eq r q
  exact Memory.readable_part h le_rfl (by omega)

/-! The writes of a call (R258) -/

/-- `count` slots written from `slot` at a stride, the one of index `m` with `value m` (R253). -/
def writeSlots (buf : List (Nat × Half)) (slot spacing : Nat) (value : Nat → Half) : (count : Nat) → List (Nat × Half)
  | 0 => buf
  | m + 1 => Memory.write (writeSlots buf slot spacing value m) (slot + m * spacing) (value m)

theorem read_writeSlots_outside (buf : List (Nat × Half)) {slot spacing count k : Nat} (value : Nat → Half)
    (h : ∀ m < count, k ≠ slot + m * spacing) :
    Memory.read (writeSlots buf slot spacing value count) k = Memory.read buf k := by
  induction count with
  | zero => rfl
  | succ n ih =>
    rw [writeSlots, Memory.read_write_other _ _ (h n (Nat.lt_succ_self n))]
    exact ih fun m hm => h m (Nat.lt_succ_of_lt hm)

theorem read_writeSlots (buf : List (Nat × Half)) (slot : Nat) {spacing count m : Nat} (value : Nat → Half)
    (hspacing : 1 ≤ spacing) (hm : m < count) :
    Memory.read (writeSlots buf slot spacing value count) (slot + m * spacing) = some (value m) := by
  induction count with
  | zero => omega
  | succ n ih =>
    rw [writeSlots]
    by_cases hlast : m = n
    · rw [hlast, Memory.read_write_same]
    · have hother : slot + m * spacing ≠ slot + n * spacing := fun heq =>
        hlast (Nat.eq_of_mul_eq_mul_right hspacing (Nat.add_left_cancel heq))
      rw [Memory.read_write_other _ _ hother]
      exact ih (by omega)

/-- R260: slots written in two pieces. -/
theorem writeSlots_add (buf : List (Nat × Half)) (slot spacing : Nat) (value : Nat → Half) (n m : Nat) :
    writeSlots buf slot spacing value (n + m) =
      writeSlots (writeSlots buf slot spacing value n) (slot + n * spacing) spacing (fun i => value (n + i)) m := by
  induction m with
  | zero => rfl
  | succ m ih => rw [← Nat.add_assoc, writeSlots, writeSlots, ih, Nat.add_mul, Nat.add_assoc]

/-- What the window's slot of index `m` gets (R258). -/
def windowValue (source : List Host.Cell) (addr r m : Nat) : Half := BitVec.ofInt 16 (blockSample source addr (r + m))

theorem windowValue_add (source : List Host.Cell) (addr r n : Nat) :
    windowValue source addr (r + n) = fun m => windowValue source addr r (n + m) := by
  funext m
  rw [windowValue, windowValue, Nat.add_assoc]

/-- A sample is a 16-bit value, so its slot reads it back. -/
theorem toInt_windowValue (source : List Host.Cell) (addr r m : Nat) :
    (windowValue source addr r m).toInt = blockSample source addr (r + m) :=
  (toInt_ofInt_of_range _ (clamp16_range _)).2

/-- The output buffer is `buf` with the samples done so far written into the window. -/
def State.HasWritten (buf : List (Nat × Half)) (s : State) : Prop :=
  s.outBuf = writeSlots buf s.outSlot s.channelSpacing (windowValue s.source s.blockAddr s.intraOffset) s.samplesDone

/-- R252, R253, R258: a sample that is written is `S(G)`, at the window's next slot. -/
theorem State.HasWritten.takeSample {buf : List (Nat × Half)} {s : State} (h : s.HasWritten buf) (hcount : s.Counted) :
    (s.takeSample (blockSample s.source s.blockAddr s.g)).HasWritten buf := by
  have hdone := hcount.done
  unfold State.HasWritten at h ⊢
  simp only [State.takeSample_outBuf, State.takeSample_samplesDone, State.takeSample_outSlot, State.takeSample_channelSpacing,
    State.takeSample_source, State.takeSample_blockAddr, State.takeSample_intraOffset]
  split
  next hwrites =>
    obtain ⟨hin, hopen⟩ := s.writes_iff.mp hwrites
    have hg : s.g = s.intraOffset + s.samplesDone := by omega
    rw [writeSlots, ← h, State.nextSlot, windowValue, ← hg]
  next => exact h

/-! A call from its start to its stop -/

/-- What holds of the states of a call that is left alone on a source that can supply its reads. The call started with `buf` in the
output buffer and `log` as the reads made. -/
structure State.OnCourse (buf : List (Nat × Half)) (log : List (Nat × Nat)) (s : State) : Prop where
  busy     : s.status = .busy
  alone    : s.tape = []
  readable : callReadable s.source s.blockAddr s.intraOffset s.samplesToDo
  counted  : s.Counted
  need     : s.WithinNeed
  follows  : s.FollowsBlock
  read     : s.HasRead log
  written  : s.HasWritten buf

theorem State.onCourse_startCall {s : State} {c : Command} (htape : s.tape = [])
    (hread : callReadable s.source (locateAddr c.base c.first) (locateOffset c.first) c.count) :
    (s.startCall c).OnCourse s.outBuf s.readLog where
  busy := rfl
  alone := htape
  readable := hread
  counted := ⟨by simp, rfl, rfl⟩
  need := ⟨Nat.zero_le _, by simp⟩
  follows := ⟨by simp, by simp, by simp, by simp [State.subframeBegun], nofun⟩
  read := ⟨fun _ => rfl, by simp⟩
  written := rfl

section
variable {buf : List (Nat × Half)} {log : List (Nat × Nat)} {s : State} (h : s.OnCourse buf log)
include h

theorem State.OnCourse.header (hstage : s.stage = .header) : ∃ t, decoderTurn s = .next t ∧ t.OnCourse buf log := by
  obtain ⟨hpos, hg⟩ := (State.placeOk_header hstage).mp h.counted.place
  have hreads : ∀ r ∈ s.headerReads, Memory.readable s.source r.1 r.2 = true :=
    s.headerReads_readable.mpr (callReadable_header h.readable)
  have hfollows := State.FollowsBlock.hdr hpos hg s.headerReads
  obtain ⟨cb, sb, h1, h2, hfields⟩ : ∃ cb sb h1 h2, decodeHeader s.headerBits = .hdr cb sb h1 h2 := ⟨_, _, _, _, rfl⟩
  have hturn := decoderTurn_header h.busy hstage
  rw [hfields] at hturn hfollows
  refine ⟨_, hturn.trans (exec_hdr_ok s cb sb h1 h2 hreads), ?_⟩
  exact {
    busy := h.busy
    alone := h.alone
    readable := h.readable
    counted := h.counted.hdr hstage cb sb h1 h2 s.headerReads
    need := ⟨h.need.nibbles, nofun⟩
    follows := hfollows
    read := h.read.hdr hstage hg cb sb h1 h2
    written := h.written }

theorem State.OnCourse.descriptor (hstage : s.stage = .boundary) (hq : s.quotaOpen = true) (hj : s.pos.j = 0) :
    ∃ t, decoderTurn s = .next t ∧ t.OnCourse buf log := by
  refine ⟨_, decoderTurn_descriptor h.busy hstage hq hj, ?_⟩
  exact {
    busy := h.busy
    alone := h.alone
    readable := h.readable
    counted := h.counted.beginSubframe hstage hj _ _
    need := ⟨h.need.nibbles, fun _ => h.counted.word_needed hstage hq⟩
    follows := h.follows.beginSubframe hstage
    read := h.read.beginSubframe hstage _ _
    written := h.written }

theorem State.OnCourse.word (hstage : s.stage = .fetch ∨ (s.stage = .boundary ∧ s.quotaOpen = true ∧ s.pos.j ≠ 0)) :
    ∃ t, decoderTurn s = .next t ∧ t.OnCourse buf log := by
  have hg : s.g = s.pos.index := by
    rcases hstage with hfetch | ⟨hboundary, -, -⟩
    · exact ((State.placeOk_fetch hfetch).mp h.counted.place).2.2
    · exact ((State.placeOk_boundary hboundary).mp h.counted.place).2
  have hneeded : s.g / 8 < callWords s.intraOffset s.samplesToDo := by
    rcases hstage with hfetch | ⟨hboundary, hq, -⟩
    · exact h.need.words (.inl hfetch)
    · exact h.counted.word_needed hboundary hq
  have hread : Memory.readable s.source s.nibbleWordAddr 4 = true := by
    rw [State.nibbleWordAddr_eq, ← hg]
    exact callReadable_word h.readable hneeded
  refine ⟨_, (decoderTurn_word h.busy hstage).trans (exec_nibw_ok s s.wordBits hread), ?_⟩
  exact {
    busy := h.busy
    alone := h.alone
    readable := h.readable
    counted := h.counted.nibw hstage s.wordBits s.nibbleReads
    need := ⟨h.need.nibbles, fun _ => hneeded⟩
    follows := h.follows.nibw hstage s.nibbleReads
    read := h.read.nibw hg (hstage.imp_right And.left) s.wordBits
    written := h.written }

theorem State.OnCourse.sample (hstage : s.stage = .nibble) (hq : s.quotaOpen = true) :
    ∃ t, decoderTurn s = .next t ∧ t.OnCourse buf log := by
  have hg := (State.placeOk_nibble hstage).mp h.counted.place
  refine ⟨_, decoderTurn_nibble h.busy hstage hq, ?_⟩
  exact {
    busy := by simpa using h.busy
    alone := by simpa using h.alone
    readable := by simpa using h.readable
    counted := h.counted.takeSample hstage hq _
    need := h.need.takeSample h.counted hstage hq _
    follows := h.follows.takeSample hstage hg
    read := h.read.takeSample hstage hg _
    written := by
      rw [h.follows.clamped_eq hstage hg]
      exact h.written.takeSample h.counted }

/-- R250: a turn of the call ends it or keeps it on course. -/
theorem State.OnCourse.turn : s.Stops ∨ ∃ t, decoderTurn s = .next t ∧ t.OnCourse buf log := by
  rcases decoderTurn_cases h.busy with
    ⟨hstage, -⟩ | ⟨hstage, hq, hj, -⟩ | ⟨hstage, -⟩ | ⟨hstage, hq, -⟩ | ⟨hstop, -⟩
  · exact .inr (h.header hstage)
  · exact .inr (h.descriptor hstage hq hj)
  · exact .inr (h.word hstage)
  · exact .inr (h.sample hstage hq)
  · exact .inl hstop

end

/-! What a call leaves as it was accepted -/

/-- What the turns of a call read and never write: the source, the operands they use, the locator registers and the widths. -/
structure CallFrame where
  source         : List Host.Cell
  outSlot        : Nat
  channelSpacing : Nat
  samplesToDo    : Nat
  intraOffset    : Nat
  blockAddr      : Nat
  widths         : Widths

def State.callFrame (s : State) : CallFrame :=
  ⟨s.source, s.outSlot, s.channelSpacing, s.samplesToDo, s.intraOffset, s.blockAddr, s.widths⟩

theorem loadOperands_callFrame (i : Instr) (s : State) : (loadOperands i s).callFrame = s.callFrame := by
  cases i <;> rfl

theorem exec_callFrame {i : Instr} {s t : State} (hb : s.status = .busy) (h : exec i s = .next t) :
    t.callFrame = s.callFrame := by
  cases execResult_of_exec h with
  | started c hacc => exact absurd hacc (s.not_accepts_of_busy hb c)
  | refused | faulted | begun => rfl
  | loaded => exact loadOperands_callFrame i (s.afterReads (s.readsOf i))
  | sampled => simp [State.callFrame]

theorem decoderTurn_callFrame {s t : State} (h : decoderTurn s = .next t) : t.callFrame = s.callFrame := by
  rcases decoderTurn_next h with ⟨-, rfl⟩ | ⟨hb, raw, -, hexec⟩ | ⟨-, -, rfl⟩
  · rfl
  · exact exec_callFrame hb hexec
  · rfl

/-! The run to the stop -/

/-- R123: a call on course comes to its stop before its turns are used up. -/
theorem State.OnCourse.reaches_stop {buf : List (Nat × Half)} {log : List (Nat × Nat)} {s : State} (h : s.OnCourse buf log) :
    ∃ k w, k < s.turnsLeft ∧ Host.Core.run Sys2Proof.core k s = .next w ∧ w.OnCourse buf log ∧ w.Stops ∧
      w.callFrame = s.callFrame := by
  induction hn : s.turnsLeft using Nat.strongRecOn generalizing s with
  | ind n ih =>
    subst hn
    rcases h.turn with hstop | ⟨t, hturn, ht⟩
    · exact ⟨0, s, s.turnsLeft_range.1, rfl, h, hstop, rfl⟩
    · have hleft := turnsLeft_of_decoderTurn h.busy hturn ht.busy
      obtain ⟨k, w, hk, hrun, hw, hstop, hframe⟩ := ih _ hleft ht rfl
      have hstep := (step_of_tape_nil h.alone).trans hturn
      exact ⟨k + 1, w, by omega, (core_run_succ hstep k).trans hrun, hw, hstop, hframe.trans (decoderTurn_callFrame hturn)⟩

/-- R250: the step at the stop is the end of the call. -/
theorem State.OnCourse.step_stop {buf : List (Nat × Half)} {log : List (Nat × Nat)} {s : State} (h : s.OnCourse buf log)
    (hstop : s.Stops) : step s = .next s.finish :=
  (step_of_tape_nil h.alone).trans (decoderTurn_finish h.busy hstop)

/-- One more step of a run. -/
theorem core_run_then {k : Nat} {s t u : State} (h : Host.Core.run Sys2Proof.core k s = .next t) (hstep : step t = .next u) :
    Host.Core.run Sys2Proof.core (k + 1) s = .next u := by
  induction k generalizing s with
  | zero =>
    obtain rfl := Host.Outcome.next.inj h
    exact core_run_succ hstep 0
  | succ k ih =>
    obtain ⟨v, hv⟩ := everyStepAnswersNext s
    exact (core_run_succ hv (k + 1)).trans (ih ((core_run_succ hv k).symm.trans h))

/-- `w` is the state in which the call that `s` started with `c` stops: its counters, reads and writes in closed form (R257, R258). -/
structure State.StopOf (s : State) (c : Command) (w : State) : Prop where
  busy    : w.status = .busy
  alone   : w.tape = []
  source  : w.source = s.source
  widths  : w.widths = s.widths
  g       : w.g = callNibbles (locateOffset c.first) c.count
  done    : w.samplesDone = windowCount (locateOffset c.first) c.count
  readLog : w.readLog = s.readLog ++ callReads (locateAddr c.base c.first) (locateOffset c.first) c.count
  outBuf  : w.outBuf = writeSlots s.outBuf c.out c.spacing
    (windowValue s.source (locateAddr c.base c.first) (locateOffset c.first)) (windowCount (locateOffset c.first) c.count)

theorem State.OnCourse.stopOf {s w : State} {c : Command} (h : w.OnCourse s.outBuf s.readLog) (hstop : w.Stops)
    (hframe : w.callFrame = (s.startCall c).callFrame) : s.StopOf c w := by
  obtain ⟨hsource, hslot, hspacing, hcount, hoffset, haddr, hwidths⟩ := CallFrame.mk.inj hframe
  have hg := h.need.g_eq h.counted hstop
  have hdone : w.samplesDone = w.windowSize := h.counted.eq_windowSize hstop
  have hwords := h.need.wordsRead_eq h.counted hstop
  have hread := h.read.block (by rcases hstop with hstage | ⟨hstage | hstage, -⟩ <;> simp [hstage])
  have hwritten : w.outBuf = _ := h.written
  rw [hdone] at hwritten
  rw [hwords, ← callReads_eq] at hread
  simp only [State.windowSize, hsource, hslot, hspacing, hcount, hoffset, haddr] at hg hdone hread hwritten
  exact ⟨h.busy, h.alone, hsource, hwidths, hg, hdone, hread, hwritten⟩

/-- R120, R257, R258: an accepted call that is left alone and can read what it needs comes to its stop, and the next step ends it. -/
theorem State.call_reaches_stop {s : State} {c : Command} (htape : s.tape = [])
    (hread : callReadable s.source (locateAddr c.base c.first) (locateOffset c.first) c.count) :
    ∃ k w, k < callSteps ∧ Host.Core.run Sys2Proof.core k (s.startCall c) = .next w ∧ s.StopOf c w ∧
      step w = .next w.finish := by
  obtain ⟨k, w, hk, hrun, hcourse, hstop, hframe⟩ := (State.onCourse_startCall htape hread).reaches_stop
  exact ⟨k, w, Nat.lt_of_lt_of_le hk (State.turnsLeft_range _).2, hrun, hcourse.stopOf hstop hframe, hcourse.step_stop hstop⟩

end Sys2Proof.Machine
end

section
/-! PROOFS. The output window and the sequencer (46_output_window_sequencer.md): the reads and the writes of a whole call (R257, R258),
and a range decoded in two pieces (R260). -/

namespace Sys2Proof.Machine

/-- R123: the steps of a call. -/
theorem callSteps_le : callSteps ≤ 300 := by decide

/-- Settles O46: the call comes to its stop with the reads and the count of R257, and the next step ends it. -/
theorem callMakesTheseReads : Obligations.CallMakesTheseReads := by
  intro s base out spacing first count r a hacc htape hr ha hread
  subst hr ha
  obtain ⟨k, w, hk, hrun, hw, hstep⟩ := State.call_reaches_stop (c := ⟨base, out, spacing, first, count⟩) htape hread
  have hsteps := callSteps_le
  exact ⟨_, k, w, w.finish, exec_decode_accepted hacc, by omega, hrun, hw.busy, hw.g, hstep, rfl, hw.readLog⟩

/-- R258: such a call ends in `DONE` with the window written, and has left the source, the widths and the tape as they were. -/
theorem State.call_ends_done {s : State} {c : Command} (htape : s.tape = [])
    (hread : callReadable s.source (locateAddr c.base c.first) (locateOffset c.first) c.count) :
    ∃ k u, k ≤ callSteps ∧ Host.Core.run Sys2Proof.core k (s.startCall c) = .next u ∧ u.status = .done ∧
      u.samplesWritten = windowCount (locateOffset c.first) c.count ∧
      u.outBuf = writeSlots s.outBuf c.out c.spacing
        (windowValue s.source (locateAddr c.base c.first) (locateOffset c.first))
        (windowCount (locateOffset c.first) c.count) ∧
      u.source = s.source ∧ u.widths = s.widths ∧ u.tape = [] := by
  obtain ⟨k, w, hk, hrun, hw, hstep⟩ := State.call_reaches_stop htape hread
  exact ⟨k + 1, w.finish, hk, core_run_then hrun hstep, rfl, hw.done, hw.outBuf, hw.source, hw.widths, hw.alone⟩

/-- Settles O45: the slots of the window were written with the samples' values, and no other slot was. -/
theorem callWritesItsWindow : Obligations.CallWritesItsWindow := by
  intro s base out spacing first count r a hacc htape hr ha hread
  subst hr ha
  obtain ⟨k, u, hk, hrun, hdone, hcount, hbuf, -⟩ :=
    State.call_ends_done (c := ⟨base, out, spacing, first, count⟩) htape hread
  have hsteps := callSteps_le
  have hstart := exec_decode_accepted hacc
  obtain ⟨-, hspacing, -⟩ := hacc
  refine ⟨_, k, u, hstart, by omega, hrun, hdone, hcount, fun m hm => ?_, fun slot hslot => ?_⟩
  · refine ⟨_, ?_, toInt_windowValue _ _ _ m⟩
    rw [hbuf]
    exact read_writeSlots _ _ _ hspacing hm
  · rw [hbuf]
    exact read_writeSlots_outside _ _ hslot

/-- A later sample of the same block (R141 to R143). -/
theorem locate_add {first n : Nat} (h : locateOffset first + n < 256) (base : Nat) :
    locateOffset (first + n) = locateOffset first + n ∧ locateAddr base (first + n) = locateAddr base first := by
  unfold locateOffset locateAddr locateIndex blockSamples at *
  have hindex : (first + n) / 256 = first / 256 := by omega
  exact ⟨by omega, by rw [hindex]⟩

/-- R258: a call whose range lies in one readable block ends in `DONE` with the range written. -/
theorem State.call_inBlock {s : State} {base first count : Nat} (out spacing : Nat) (htape : s.tape = [])
    (hblock : locateOffset first + count ≤ 256) (hread : Memory.readable s.source (locateAddr base first) 0x8c = true) :
    ∃ k u, Host.Core.run Sys2Proof.core k (s.startCall ⟨base, out, spacing, first, count⟩) = .next u ∧ u.status = .done ∧
      u.outBuf = writeSlots s.outBuf out spacing (windowValue s.source (locateAddr base first) (locateOffset first)) count ∧
      u.source = s.source ∧ u.widths = s.widths ∧ u.tape = [] := by
  obtain ⟨k, u, -, hrun, hdone, -, hbuf, hkept⟩ :=
    State.call_ends_done (c := ⟨base, out, spacing, first, count⟩) htape (callReadable_of_block hread _ _)
  have hcount : windowCount (locateOffset first) count = count := Nat.min_eq_left (by unfold blockSamples; omega)
  rw [hcount] at hbuf
  exact ⟨k, u, hrun, hdone, hbuf, hkept⟩

/-- Settles O47: each call writes values of the one function `S`, so the two pieces' writes are the whole call's. -/
theorem splittingARangeGivesTheSameSlots : Obligations.SplittingARangeGivesTheSameSlots := by
  intro s base out spacing first n m hm hblock htape hacc hacc1 hacc2 hread
  replace hblock : locateOffset first + n + m ≤ 256 := hblock
  obtain ⟨hoffset, haddr⟩ := locate_add (n := n) (by omega : locateOffset first + n < 256) base
  obtain ⟨k, t, hrun, hdone, hbuf, -⟩ :=
    s.call_inBlock (base := base) (first := first) (count := n + m) out spacing htape (by omega) hread
  obtain ⟨i, u, hrun1, hdone1, hbuf1, hsource, hwidths, htape1⟩ :=
    s.call_inBlock (base := base) (first := first) (count := n) out spacing htape (by omega) hread
  obtain ⟨j, v, hrun2, hdone2, hbuf2, -⟩ :=
    State.call_inBlock (s := u) (base := base) (first := first + n) (count := m) (out + n * spacing) spacing htape1 (by omega)
      (by rw [hsource, haddr]; exact hread)
  have hacc2' : u.accepts ⟨base, out + n * spacing, spacing, first + n, m⟩ := by
    obtain ⟨-, hfits⟩ := hacc2
    rw [← hwidths] at hfits
    exact ⟨by simp [hdone1], hfits⟩
  have hsame : v.outBuf = t.outBuf := by
    rw [hbuf2, hbuf1, hbuf, hsource, hoffset, haddr, windowValue_add, writeSlots_add]
  exact ⟨_, k, t, _, i, u, _, j, v, exec_decode_accepted hacc, hrun, hdone, exec_decode_accepted hacc1, hrun1, hdone1,
    exec_decode_accepted hacc2', hrun2, hdone2, fun slot => by rw [hsame]⟩

end Sys2Proof.Machine
end

section
/-! PROOFS. Faults and reset (60_exceptions.md, 70_reset_and_hazards.md): what a refused command leaves (R308), the entry to
`ReadFault` (R304 to R306) and the reset the host makes (R340). -/

namespace Sys2Proof.Machine

/-! A refused command (R121, R308) -/

/-- R121, with R78's last byte and last slot written out: any one of the five reasons keeps a command from being accepted. -/
theorem State.not_accepts_of_reason {s : State} {c : Command}
    (h : s.status = .busy ∨ c.spacing = 0 ∨ operandsFit s.widths c = false ∨
      fitsWidth s.widths.addrW (c.base + 0x8c * (c.first / 256) + 0x8b) = false ∨
      fitsWidth s.widths.slotW (c.out + (min c.count (256 - c.first % 256) - 1) * c.spacing) = false) :
    ¬ s.accepts c := by
  rintro ⟨hidle, hspacing, hoperands, hblock, hslots⟩
  rcases h with hbusy | hzero | hwidth | haddr | hslot
  · exact hidle hbusy
  · omega
  · exact Bool.false_ne_true (hwidth.symm.trans hoperands)
  · exact Bool.false_ne_true (haddr.symm.trans hblock)
  · exact Bool.false_ne_true (hslot.symm.trans hslots)

/-- Settles O17: each of R121's reasons leads to `State.refuse`, which sets the reply port and nothing else. -/
theorem refusedCommandChangesNothing : Obligations.RefusedCommandChangesNothing := by
  intro s c h
  obtain ⟨r, -, hexec⟩ := exec_decode_refused (State.not_accepts_of_reason h)
  exact ⟨s.refuse r, hexec, rfl⟩

/-! The window of a call that does not end in `DONE` (R305) -/

theorem Memory.isSome_read_write {α : Type} {m : List (Nat × α)} {c : Nat} (a : Nat) (v : α)
    (h : (Memory.read m c).isSome = true) : (Memory.read (Memory.write m a v) c).isSome = true := by
  rw [Memory.read_write]
  split
  · rfl
  · exact h

/-- The spacing may be 0: the slots are then one slot, which is filled all the same. -/
theorem isSome_read_freeSlots (buf : List (Nat × Half)) (slot sp draw : Nat) {n m : Nat} (hm : m < n) :
    (Memory.read (freeSlots buf slot sp draw n) (slot + m * sp)).isSome = true := by
  induction n with
  | zero => omega
  | succ n ih =>
    rw [freeSlots]
    obtain hlt | rfl := Nat.lt_succ_iff_lt_or_eq.mp hm
    · exact Memory.isSome_read_write _ _ (ih hlt)
    · rw [Memory.read_write_same]
      rfl

theorem State.isSome_read_freeWindow (s : State) {m : Nat} (hm : m < s.windowSize) :
    (Memory.read s.freeWindow.outBuf (s.outSlot + m * s.channelSpacing)).isSome = true :=
  isSome_read_freeSlots s.outBuf s.outSlot s.channelSpacing s.draws hm

/-! The entry to `ReadFault` (R303 to R306) -/

/-- Settles O39: the entry frees the window and no other slot, and `FAULT` is a state between calls. -/
theorem readFaultEndsTheCall : Obligations.ReadFaultEndsTheCall := by
  rintro s _ a n rest k hfail rfl
  have hreads : s.memReads ((a, n) :: rest) k = .next ((s.logRead a n).takeReadFault a n) :=
    s.memReads_fault [] rest a n k nofun hfail
  refine ⟨hreads, rfl, rfl, rfl, rfl, fun slot => ?_, fun m => ?_, fun hsilent => ?_⟩
  · exact (s.logRead a n).takeReadFault_outside a n slot
  · exact (s.logRead a n).isSome_read_freeWindow
  · exact nothingChangesBetweenCalls _ hsilent nofun

/-! The reset the host makes (R340) -/

theorem State.powerOn_outBuf_of_busy {s : State} (hb : s.status = .busy) : s.powerOn.outBuf = s.freeWindow.outBuf := by
  simp only [State.powerOn, if_pos hb]
  rfl

theorem State.powerOn_outBuf_of_idle {s : State} (hidle : s.status ≠ .busy) : s.powerOn.outBuf = s.outBuf := by
  simp only [State.powerOn, if_neg hidle]
  rfl

/-- R340: a reset touches no slot outside the window, whether or not it abandons a call. -/
theorem State.powerOn_outside (s : State) {k : Nat} (h : ∀ m < s.windowSize, k ≠ s.outSlot + m * s.channelSpacing) :
    Memory.read s.powerOn.outBuf k = Memory.read s.outBuf k := by
  by_cases hb : s.status = .busy
  · rw [State.powerOn_outBuf_of_busy hb]
    exact read_freeSlots_outside _ _ _ _ _ _ h
  · rw [State.powerOn_outBuf_of_idle hb]

/-- The step at which the host resets the block. -/
theorem step_reset {s : State} {rest : List (Option HostEvent)} (h : s.tape = some .reset :: rest) :
    step s = .next s.popped.powerOn := by
  rw [step_event h, State.popped, h]
  rfl

/-- Settles O40: the step is `State.powerOn`, which frees the window of a call in progress and is a state between calls. -/
theorem resetAbandonsTheCall : Obligations.ResetAbandonsTheCall := by
  intro s rest htape
  refine ⟨s.popped.powerOn, step_reset htape, rfl, State.powerOn_source _, fun k => ?_, fun hb m hm => ?_, fun hidle => ?_,
    fun hsilent => ?_⟩
  · exact s.popped.powerOn_outside
  · rw [State.powerOn_outBuf_of_busy (s := s.popped) hb]
    exact s.popped.isSome_read_freeWindow hm
  · exact State.powerOn_outBuf_of_idle (s := s.popped) hidle
  · exact nothingChangesBetweenCalls _ hsilent nofun

end Sys2Proof.Machine
end
